-- ==== Sys2Proof/Word.lean ====
section
/-! DEFINITION. The word types of ENTC: 00_scope.md R6 (32-bit coder state), R13 (unsigned values,
bit 0 least significant), 30_encoding.md R70 (32-bit command words), R71 (8-bit immediate). -/

namespace Sys2Proof

/-- A coder register, a command word or a response data word (00_scope.md R6, 30_encoding.md R70). -/
abbrev Word := BitVec 32

/-- An immediate, a symbol or a stream byte (30_encoding.md R71). -/
abbrev Byte := BitVec 8

end Sys2Proof
end

