-- ==== Sys2Proof/Syntax.lean ====
section
/-! DEFINITION. The 21 commands of ENTC (30_encoding.md R76), one constructor per row of the opcode
table, and the four words a command is presented as (R70). A constructor carries exactly the operands
its format uses (R72, R73), so a meaning cannot read a word the spec says is ignored. -/

namespace Sys2Proof

/-- The four words presented together at the command port (30_encoding.md R70). -/
structure Command where
  /-- the command word CW -/
  cw : Word
  /-- operand word A -/
  a : Word
  /-- operand word B -/
  b : Word
  /-- operand word C -/
  c : Word
  deriving DecidableEq, Repr

/-- The command formats of 30_encoding.md R72. -/
inductive Format where
  /-- nothing but the opcode -/
  | z
  /-- imm8 -/
  | i
  /-- operand word A -/
  | a
  /-- operand words A, B and C -/
  | abc
  deriving DecidableEq, Repr

/-- The commands of 30_encoding.md R76. -/
inductive Instr where
  /-- NOP (40_system.md R91) -/
  | nop
  /-- SRESET (40_system.md R92) -/
  | sreset
  /-- RD_REG n (40_system.md R93) -/
  | rdReg (n : Byte)
  /-- RD_EFREQ i (40_system.md R94) -/
  | rdEfreq (i : Byte)
  /-- RD_ECUM i (40_system.md R95) -/
  | rdEcum (i : Byte)
  /-- RD_DFREQ i (40_system.md R96) -/
  | rdDfreq (i : Byte)
  /-- RD_DCUM i (40_system.md R97) -/
  | rdDcum (i : Byte)
  /-- MB_CLEAR (41_model_builder.md R101) -/
  | mbClear
  /-- MB_COUNT b (41_model_builder.md R102) -/
  | mbCount (b : Byte)
  /-- MB_FINAL (41_model_builder.md R104) -/
  | mbFinal
  /-- HDR_WRITE (41_model_builder.md R106) -/
  | hdrWrite
  /-- HDR_READ (41_model_builder.md R107) -/
  | hdrRead
  /-- ENC_INIT (42_range_encoder.md R121) -/
  | encInit
  /-- ENC_ENCODE start, width, total (42_range_encoder.md R122) -/
  | encEncode (start width total : Word)
  /-- ENC_SYM s (42_range_encoder.md R123) -/
  | encSym (sym : Byte)
  /-- ENC_FLUSH (42_range_encoder.md R124) -/
  | encFlush
  /-- DEC_INIT (43_range_decoder.md R141) -/
  | decInit
  /-- DEC_GETFREQ total (43_range_decoder.md R142) -/
  | decGetfreq (total : Word)
  /-- DEC_DECODE start, width, total (43_range_decoder.md R143) -/
  | decDecode (start width total : Word)
  /-- DEC_LOOKUP f (43_range_decoder.md R146) -/
  | decLookup (f : Word)
  /-- DEC_SYM (43_range_decoder.md R147) -/
  | decSym
  deriving DecidableEq, Repr

end Sys2Proof
end

