-- ==== Sys2Proof/WellFormed.lean ====
section
/-! DEFINITION. Which command words are legal, read from 30_encoding.md R71, R72 and the list of
illegal encodings of R77, independently of the decoder (which is written from the table of R76).
Every operand of Instr has its exact width by its type, so every term of Instr is well formed; what
can be ill formed is a command word. -/

namespace Sys2Proof

/-- CW[31:24] (30_encoding.md R71). -/
def Command.opcode (c : Command) : BitVec 8 := c.cw.extractLsb' 24 8

/-- CW[23:8], reserved (30_encoding.md R71). -/
def Command.zeroField (c : Command) : BitVec 16 := c.cw.extractLsb' 8 16

/-- CW[7:0] (30_encoding.md R71). -/
def Command.imm8 (c : Command) : Byte := c.cw.extractLsb' 0 8

/-- The opcode is none of those R77 lists as not in the table. -/
def Command.opcodeAssigned (c : Command) : Bool :=
  let op := c.opcode.toNat
  !(op == 0x03 || (0x08 ≤ op && op ≤ 0x0F) || (0x15 ≤ op && op ≤ 0x1F) ||
    (0x24 ≤ op && op ≤ 0x2F) || 0x35 ≤ op)

/-- CW[23:8] = 0 (30_encoding.md R71, R77). -/
def Command.zeroFieldClear (c : Command) : Bool := c.zeroField == 0

/-- The opcodes of format I, the only ones that may have a non-zero imm8 (30_encoding.md R72). -/
def Command.hasImmediate (c : Command) : Bool :=
  [0x02, 0x04, 0x05, 0x06, 0x07, 0x11, 0x22].contains c.opcode.toNat

/-- imm8 is 0 in the formats Z, A and ABC (30_encoding.md R71, R77). -/
def Command.immediateAllowed (c : Command) : Bool := c.hasImmediate || c.imm8 == 0

/-- A legal encoding: none of the three illegal cases of 30_encoding.md R77. -/
def Command.wellFormed (c : Command) : Bool :=
  c.opcodeAssigned && c.zeroFieldClear && c.immediateAllowed

end Sys2Proof
end

