-- ==== Sys2Proof/Decode.lean ====
section
/-! DEFINITION. The command decoder, total on any four words, and the encoder, both written from the
opcode table of 30_encoding.md R76 and the formats of R72. -/

namespace Sys2Proof

/-- Why a command word decodes to no command (30_encoding.md R77). Each makes the step raise
ILLEGAL_CMD (60_exceptions.md R183), or be refused while faulted. -/
inductive DecodeError where
  /-- the opcode is in no row of R76 -/
  | unassignedOpcode
  /-- CW[23:8] is not 0 -/
  | reservedField
  /-- imm8 is not 0 in a format that has none -/
  | strayImmediate
  deriving DecidableEq, Repr

/-- One row of the opcode table: mnemonic, format, match and mask of 30_encoding.md R72, R76. -/
structure OpcodeRow where
  mnemonic : String
  format : Format
  opcode : BitVec 8
  deriving DecidableEq, Repr

/-- `match = opcode << 24` (30_encoding.md R72). -/
def OpcodeRow.matchWord (r : OpcodeRow) : Word := r.opcode ++ 0#24

/-- The mask on CW of the row's format (30_encoding.md R72). -/
def OpcodeRow.mask (r : OpcodeRow) : Word :=
  match r.format with
  | .i => 0xFFFFFF00#32
  | .z => 0xFFFFFFFF#32
  | .a => 0xFFFFFFFF#32
  | .abc => 0xFFFFFFFF#32

/-- A command word matches a row when `(CW AND mask) == match` (30_encoding.md R72). -/
def OpcodeRow.matchesWord (r : OpcodeRow) (cw : Word) : Bool := (cw &&& r.mask) == r.matchWord

/-- The opcode table of 30_encoding.md R76, in its order. -/
def opcodeTable : List OpcodeRow :=
  [⟨"NOP", .z, 0x00⟩, ⟨"SRESET", .z, 0x01⟩, ⟨"RD_REG", .i, 0x02⟩, ⟨"RD_EFREQ", .i, 0x04⟩,
    ⟨"RD_ECUM", .i, 0x05⟩, ⟨"RD_DFREQ", .i, 0x06⟩, ⟨"RD_DCUM", .i, 0x07⟩] ++
  [⟨"MB_CLEAR", .z, 0x10⟩, ⟨"MB_COUNT", .i, 0x11⟩, ⟨"MB_FINAL", .z, 0x12⟩,
    ⟨"HDR_WRITE", .z, 0x13⟩, ⟨"HDR_READ", .z, 0x14⟩] ++
  [⟨"ENC_INIT", .z, 0x20⟩, ⟨"ENC_ENCODE", .abc, 0x21⟩, ⟨"ENC_SYM", .i, 0x22⟩,
    ⟨"ENC_FLUSH", .z, 0x23⟩] ++
  [⟨"DEC_INIT", .z, 0x30⟩, ⟨"DEC_GETFREQ", .a, 0x31⟩, ⟨"DEC_DECODE", .abc, 0x32⟩,
    ⟨"DEC_LOOKUP", .a, 0x33⟩, ⟨"DEC_SYM", .z, 0x34⟩]

/-- The format and the command of an opcode, its operands assembled as 30_encoding.md R73 says. -/
def decodeOpcode (c : Command) : Option (Format × Instr) :=
  match c.opcode.toNat with
  | 0x00 => some (.z, .nop)
  | 0x01 => some (.z, .sreset)
  | 0x02 => some (.i, .rdReg c.imm8)
  | 0x04 => some (.i, .rdEfreq c.imm8)
  | 0x05 => some (.i, .rdEcum c.imm8)
  | 0x06 => some (.i, .rdDfreq c.imm8)
  | 0x07 => some (.i, .rdDcum c.imm8)
  | 0x10 => some (.z, .mbClear)
  | 0x11 => some (.i, .mbCount c.imm8)
  | 0x12 => some (.z, .mbFinal)
  | 0x13 => some (.z, .hdrWrite)
  | 0x14 => some (.z, .hdrRead)
  | 0x20 => some (.z, .encInit)
  | 0x21 => some (.abc, .encEncode c.a c.b c.c)
  | 0x22 => some (.i, .encSym c.imm8)
  | 0x23 => some (.z, .encFlush)
  | 0x30 => some (.z, .decInit)
  | 0x31 => some (.a, .decGetfreq c.a)
  | 0x32 => some (.abc, .decDecode c.a c.b c.c)
  | 0x33 => some (.a, .decLookup c.a)
  | 0x34 => some (.z, .decSym)
  | _ => none

/-- The decoder: 30_encoding.md R72 and R77, rejecting by name. -/
def decode (c : Command) : Except DecodeError Instr :=
  match decodeOpcode c with
  | none => .error .unassignedOpcode
  | some (f, i) =>
    if c.zeroField ≠ 0 then .error .reservedField
    else if f ≠ .i ∧ c.imm8 ≠ 0 then .error .strayImmediate
    else .ok i

/-- CW of a command: opcode in bits 31..24, zero in 23..8, imm8 in 7..0 (30_encoding.md R71). -/
def commandWord (opcode imm8 : Byte) : Word := opcode ++ 0#16 ++ imm8

/-- Format Z: the operand words are assembled as 0 (30_encoding.md R80). -/
def encodeZ (opcode : Byte) : Command := ⟨commandWord opcode 0, 0, 0, 0⟩

/-- Format I: imm8 in CW[7:0]. -/
def encodeI (opcode imm8 : Byte) : Command := ⟨commandWord opcode imm8, 0, 0, 0⟩

/-- Format A: operand word A. -/
def encodeA (opcode : Byte) (a : Word) : Command := ⟨commandWord opcode 0, a, 0, 0⟩

/-- Format ABC: operand words A, B, C. -/
def encodeABC (opcode : Byte) (a b c : Word) : Command := ⟨commandWord opcode 0, a, b, c⟩

/-- The encoder: the four words of a command (30_encoding.md R71 to R73, R76, R80). -/
def encode (i : Instr) : Command :=
  match i with
  | .nop => encodeZ 0x00
  | .sreset => encodeZ 0x01
  | .rdReg n => encodeI 0x02 n
  | .rdEfreq i => encodeI 0x04 i
  | .rdEcum i => encodeI 0x05 i
  | .rdDfreq i => encodeI 0x06 i
  | .rdDcum i => encodeI 0x07 i
  | .mbClear => encodeZ 0x10
  | .mbCount b => encodeI 0x11 b
  | .mbFinal => encodeZ 0x12
  | .hdrWrite => encodeZ 0x13
  | .hdrRead => encodeZ 0x14
  | .encInit => encodeZ 0x20
  | .encEncode start width total => encodeABC 0x21 start width total
  | .encSym s => encodeI 0x22 s
  | .encFlush => encodeZ 0x23
  | .decInit => encodeZ 0x30
  | .decGetfreq total => encodeA 0x31 total
  | .decDecode start width total => encodeABC 0x32 start width total
  | .decLookup f => encodeA 0x33 f
  | .decSym => encodeZ 0x34

/-- The command word CW that FINFO records for a command (60_exceptions.md R182). -/
def cwOf (i : Instr) : Word := (encode i).cw

/-- The command whose bits are `w`, numbered as the opcode table numbers them: CW in bits 31..0, and
the operand words A, B, C counted on from it; every bit at or above `nbits` is 0 (log 12). -/
def commandOfBits (nbits w : Nat) : Command :=
  let v := w % 2 ^ nbits
  ⟨BitVec.ofNat 32 v, BitVec.ofNat 32 (v / 2 ^ 32), BitVec.ofNat 32 (v / 2 ^ 64),
    BitVec.ofNat 32 (v / 2 ^ 96)⟩

/-- The instruction the decoder reads from an opcode-table word (the host's question). -/
def decodeTableWord (nbits w : Nat) : Option Instr :=
  match decode (commandOfBits nbits w) with
  | .ok i => some i
  | .error _ => none

end Sys2Proof
end

