-- ==== Sys2Proof/Config.lean ====
section
/-! DEFINITION. The constants of 00_scope.md section 3 and the free values of the model.
FLOOR is the spec's decision D3, marked there as general knowledge (log 8, UNVERIFIED). -/

namespace Sys2Proof.Config

/-- TOP = 2^24: below it a 32-bit value has a zero top byte (00_scope.md R6). -/
def top : Nat := 2 ^ 24

/-- FLOOR = 2^16, the renormalisation floor (00_scope.md R7). UNVERIFIED, log 8. -/
def floor : Nat := 2 ^ 16

/-- FCAP = 1023, the per-symbol rescale trigger (00_scope.md R8). -/
def fcap : Nat := 1023

/-- FMAX = 1022, the largest builder entry at a command boundary (00_scope.md R8). -/
def fmax : Nat := 1022

/-- CEIL = 16384, the rescale trigger on the running total (00_scope.md R8). -/
def ceil : Nat := 16384

/-- MAXTOTAL = 2^16: a total operand is below it (00_scope.md R9). -/
def maxTotal : Nat := 2 ^ 16

/-- MAXRANGE = 2^32 - 1, the initial interval width (00_scope.md R10). -/
def maxRange : BitVec 32 := 0xFFFFFFFF#32

/-- HDRBITS = 256 × 10, the length of a header in bits (30_encoding.md R83). -/
def hdrBits : Nat := 2560

/-- Free contents of EFREQ: draw number, then index (10_state.md R49, 93_implementation_defined.md
U1; log 5, DESIGN CHOICE). -/
opaque freeEFreq : Nat → Nat → BitVec 10

/-- Free contents of ECUM: draw number, then index (log 5). -/
opaque freeECum : Nat → Nat → BitVec 18

/-- Free contents of DFREQ: draw number, then index (log 5). -/
opaque freeDFreq : Nat → Nat → BitVec 10

/-- Free contents of DCUM: draw number, then index (log 5). -/
opaque freeDCum : Nat → Nat → BitVec 18

end Sys2Proof.Config
end

