-- ==== Sys2Proof/Machine/State.lean ====
section
/-! DEFINITION. The state of ENTC and of its environment as plain data: 10_state.md R20 (the complete
architectural state), R45 (the two bit sequences), 30_encoding.md R74 and R75 (commands and
responses). The state after reset: 70_reset_and_hazards.md R210. -/

namespace Sys2Proof.Machine

/-- A table bank: 256 whole entries of `w` bits (20_memory.md R50, R51). -/
abbrev Table (w : Nat) := Vector (BitVec w) 256

/-- The six causes of 60_exceptions.md R180, in the order of their codes 1 to 6. -/
inductive Cause where
  /-- code 1, R183 -/
  | illegalCmd
  /-- code 2, R184 -/
  | protocol
  /-- code 3, R185 -/
  | contract
  /-- code 4, R186 -/
  | srcUnderflow
  /-- code 5, R187 -/
  | lookupRange
  /-- code 6, R188 -/
  | modelRange
  deriving DecidableEq, Repr

/-- EST, the state of table bank E (10_state.md R31). -/
inductive EState where
  /-- 0: contents unspecified, nothing may read them -/
  | invalid
  /-- 1: a histogram is in progress, ECUM is not valid -/
  | counting
  /-- 2: EFREQ, ECUM and E_TOTAL are final -/
  | final
  deriving DecidableEq, Repr

/-- DST, the state of table bank D (10_state.md R32). -/
inductive DState where
  /-- 0 -/
  | invalid
  /-- 2: DFREQ, DCUM and D_TOTAL hold a model read from a header -/
  | final
  deriving DecidableEq, Repr

/-- DCS, the state of the decoder's coder registers (10_state.md R33). -/
inductive CoderState where
  /-- 0: D_CODE not primed -/
  | uninit
  /-- 1: primed, the next decoder step is a DEC_GETFREQ or a DEC_SYM -/
  | ready
  /-- 2: D_RANGE is divided and the matching DEC_DECODE has not yet run -/
  | pending
  deriving DecidableEq, Repr

/-- The three data words a command's rule gives to `respond` (30_encoding.md R75). -/
structure Data where
  d0 : Word
  d1 : Word
  d2 : Word
  deriving DecidableEq, Repr

/-- One response (30_encoding.md R75). -/
structure Response where
  status : BitVec 8
  d0 : Word
  d1 : Word
  d2 : Word
  deriving DecidableEq, Repr

/-- What the host does to ENTC (30_encoding.md R74, 70_reset_and_hazards.md R223). -/
inductive HostEvent where
  /-- present a command at the command port -/
  | command (c : Command)
  /-- assert and release `rst` between commands (70_reset_and_hazards.md R210) -/
  | rst
  /-- present `c` and assert `rst` when it has made `k` stream transfers (R210; log 6) -/
  | rstDuring (c : Command) (k : Nat)
  /-- put a fresh source sequence IN in place, its read position 0 (log 3) -/
  | newSource (bits : List Bool)
  /-- put a fresh, empty sink OUT in place (log 3) -/
  | newSink
  deriving DecidableEq, Repr

/-- ENTC and its environment. The first block is 10_state.md R20, in its order. -/
structure State where
  /-- E_LOW (R21) -/
  eLow : Word
  /-- E_RANGE (R22) -/
  eRange : Word
  /-- E_DIRTY (R23) -/
  eDirty : Bool
  /-- D_LOW (R24) -/
  dLow : Word
  /-- D_RANGE (R25) -/
  dRange : Word
  /-- D_CODE (R26) -/
  dCode : Word
  /-- D_TOT (R27) -/
  dTot : BitVec 16
  /-- RUNTOT (R28) -/
  runtot : BitVec 15
  /-- E_TOTAL (R29) -/
  eTotal : BitVec 18
  /-- D_TOTAL (R30) -/
  dTotal : BitVec 18
  /-- EST (R31) -/
  est : EState
  /-- DST (R32) -/
  dst : DState
  /-- DCS (R33) -/
  dcs : CoderState
  /-- FCAUSE (R34): none is 0 = NONE -/
  fcause : Option Cause
  /-- FINFO (R35) -/
  finfo : Word
  /-- EFREQ (R38) -/
  efreq : Table 10
  /-- ECUM (R39) -/
  ecum : Table 18
  /-- DFREQ (R40) -/
  dfreq : Table 10
  /-- DCUM (R41) -/
  dcum : Table 18
  /-- the sink sequence OUT (20_memory.md R52), first pushed bit first -/
  out : List Bool
  /-- the source sequence IN (20_memory.md R53) -/
  src : List Bool
  /-- SRCPOS: how many bits of IN are taken (20_memory.md R53) -/
  srcpos : Nat
  /-- the host's actions not yet taken, oldest first (log 1) -/
  inputs : List HostEvent
  /-- the responses given, oldest first (30_encoding.md R74; log 2) -/
  responses : List Response
  /-- the model's own counter: how often the banks were given free contents (log 5) -/
  draws : Nat
  deriving DecidableEq, Repr

/-- The stops of the model. ENTC itself never stops (70_reset_and_hazards.md R224); its six faults are
next states (Ops.lean, `takeFault`). -/
inductive Fault where
  /-- Raised by ENC_ENCODE, ENC_SYM, DEC_DECODE and DEC_SYM if a renormalisation loop (42_range_encoder.md
  R127, 43_range_decoder.md R144), which has no iteration limit, would not end. SAFE: it stops where the
  loop would run for ever, and no meaning raises it from any state (R130; log 7). -/
  | renormDiverges
  deriving DecidableEq, Repr

/-- The refusals of the model; no arm of exec uses one. -/
inductive Refusal where
  /-- An instruction without a meaning. Raised only by an arm of exec, and by none now. SAFE. -/
  | notModelled (mnemonic : String)
  deriving DecidableEq, Repr

/-- The state right after power-on reset (70_reset_and_hazards.md R210). The banks, which the spec
leaves unspecified, hold zeros (DESIGN CHOICE, UNSAFE, log 4); the environment is empty (DESIGN
CHOICE, UNSAFE, logs 1 to 3); the draw counter is 0 (DESIGN CHOICE, log 5). -/
def State.reset : State where
  eLow := 0
  eRange := Config.maxRange
  eDirty := false
  dLow := 0
  dRange := Config.maxRange
  dCode := 0
  dTot := 0
  runtot := 0
  eTotal := 0
  dTotal := 0
  est := .invalid
  dst := .invalid
  dcs := .uninit
  fcause := none
  finfo := 0
  efreq := Vector.replicate 256 0
  ecum := Vector.replicate 256 0
  dfreq := Vector.replicate 256 0
  dcum := Vector.replicate 256 0
  out := []
  src := []
  srcpos := 0
  inputs := []
  responses := []
  draws := 0

end Sys2Proof.Machine
end

