-- ==== Sys2Proof/Machine/Ops.lean ====
section
/-! DEFINITION. The named operations of ENTC: one-group register writes, the banks (20_memory.md R51),
the sink and the source (R52, R53), the result of a piece of pseudocode, taking a fault
(60_exceptions.md R182), refusing (40_system.md R90) and resetting (70_reset_and_hazards.md R210). -/

namespace Sys2Proof.Machine

/-! ### Register writes, one group each -/

/-- Write E_LOW and E_RANGE (10_state.md R21, R22). -/
def State.setEnc (s : State) (low range : Word) : State := { s with eLow := low, eRange := range }

/-- Write E_DIRTY (10_state.md R23). -/
def State.setDirty (s : State) (d : Bool) : State := { s with eDirty := d }

/-- Write D_LOW, D_RANGE and D_CODE (10_state.md R24 to R26). -/
def State.setDec (s : State) (low range code : Word) : State :=
  { s with dLow := low, dRange := range, dCode := code }

/-- Write D_TOT (10_state.md R27). -/
def State.setTot (s : State) (t : BitVec 16) : State := { s with dTot := t }

/-- Write DCS (10_state.md R33). -/
def State.setDcs (s : State) (x : CoderState) : State := { s with dcs := x }

/-- Write DST (10_state.md R32). -/
def State.setDst (s : State) (x : DState) : State := { s with dst := x }

/-- Write EST (10_state.md R31). -/
def State.setEst (s : State) (x : EState) : State := { s with est := x }

/-- Write the histogram of bank E: EFREQ and RUNTOT (10_state.md R38, R28). -/
def State.setHistogram (s : State) (freq : Table 10) (total : BitVec 15) : State :=
  { s with efreq := freq, runtot := total }

/-- Write ECUM and E_TOTAL (10_state.md R39, R29). -/
def State.setECum (s : State) (m : Table 18 × BitVec 18) : State :=
  { s with ecum := m.1, eTotal := m.2 }

/-- Write DFREQ (10_state.md R40). -/
def State.setDFreq (s : State) (freq : Table 10) : State := { s with dfreq := freq }

/-- Write DCUM and D_TOTAL (10_state.md R41, R30). -/
def State.setDCum (s : State) (m : Table 18 × BitVec 18) : State :=
  { s with dcum := m.1, dTotal := m.2 }

/-- Write FCAUSE and FINFO, together as always (10_state.md R34, R35). -/
def State.setFault (s : State) (x : Cause) (cw : Word) : State :=
  { s with fcause := some x, finfo := cw }

/-- Append bits to OUT (20_memory.md R52). -/
def State.appendOut (s : State) (bits : List Bool) : State := { s with out := s.out ++ bits }

/-- Advance SRCPOS by `n` (20_memory.md R53). -/
def State.advance (s : State) (n : Nat) : State := { s with srcpos := s.srcpos + n }

/-- Give one response (30_encoding.md R74, R75). -/
def State.answer (s : State) (status : BitVec 8) (d : Data) : State :=
  { s with responses := s.responses ++ [⟨status, d.d0, d.d1, d.d2⟩] }

/-- Take the oldest host action off the queue (log 1). -/
def State.setInputs (s : State) (rest : List HostEvent) : State := { s with inputs := rest }

/-! ### Table banks -/

/-- `BANK[i]`: the whole entry i (20_memory.md R51). An index at or above 256 never occurs (R51). -/
def readEntry {w : Nat} (t : Table w) (i : Nat) : BitVec w := if h : i < 256 then t[i] else 0

/-- `BANK[i] <- v`: the whole entry i is replaced (20_memory.md R51). -/
def writeEntry {w : Nat} (t : Table w) (i : Nat) (v : BitVec w) : Table w :=
  if h : i < 256 then t.set i v else t

/-- A bank of 256 entries, each the image of the entry with the same index. -/
def mapEntries {α β : Type} (f : α → β) (t : Vector α 256) : Vector β 256 :=
  ⟨⟨t.toList.map f⟩, by simp⟩

/-- A bank whose entry i is `f i`. -/
def tableOf {w : Nat} (f : Nat → BitVec w) : Table w :=
  ⟨⟨(List.range 256).map f⟩, by simp⟩

/-! ### Results of pseudocode -/

/-- How a piece of pseudocode ends (00_scope.md R15): with a value, at a `raise`, or (never, log 7)
in a loop that does not end. State written before a raise stays written (60_exceptions.md R192). -/
inductive Res (α : Type) where
  /-- it ran to its end -/
  | ok (a : α) (s : State)
  /-- it executed `raise x` in state `s` -/
  | raised (x : Cause) (s : State)
  /-- a loop of it would not end -/
  | diverged

/-- Sequencing: nothing after a raise is executed (60_exceptions.md R182). -/
def Res.bind {α β : Type} (r : Res α) (f : α → State → Res β) : Res β :=
  match r with
  | .ok a s => f a s
  | .raised x s => .raised x s
  | .diverged => .diverged

/-- `respond(d0, d1, d2)` (30_encoding.md R75). -/
def respond (d0 d1 d2 : Word) (s : State) : Res Data := .ok ⟨d0, d1, d2⟩ s

/-! ### The sink and the source -/

/-- The n low-order bits of v, most significant first (20_memory.md R52, R54). -/
def bitsMsbFirst (n v : Nat) : List Bool := (List.range n).map fun k => v.testBit (n - 1 - k)

/-- The unsigned value of a bit sequence, first bit most significant (20_memory.md R53, R54). -/
def natOfBits (bits : List Bool) : Nat := bits.foldl (fun acc b => 2 * acc + b.toNat) 0

/-- `Push(v, n)`: append the n low-order bits of v to OUT; it never fails (20_memory.md R52). -/
def push (n v : Nat) (s : State) : State := s.appendOut (bitsMsbFirst n v)

/-- How many bits of IN are left (20_memory.md R53). -/
def bitsLeft (s : State) : Nat := s.src.length - s.srcpos

/-- `Pop(n)`: the next n bits of IN, or SRC_UNDERFLOW with nothing taken (20_memory.md R53). -/
def pop (n : Nat) (s : State) : Res (BitVec n) :=
  if bitsLeft s < n then .raised .srcUnderflow s
  else .ok (BitVec.ofNat n (natOfBits ((s.src.drop s.srcpos).take n))) (s.advance n)

/-! ### Faults, refusals and reset -/

/-- The code of a cause: FCAUSE's value and a response's status bits [6:0] (60_exceptions.md R180). -/
def causeCode (x : Cause) : BitVec 3 :=
  match x with
  | .illegalCmd => 1
  | .protocol => 2
  | .contract => 3
  | .srcUnderflow => 4
  | .lookupRange => 5
  | .modelRange => 6

/-- The data words of a fault or a refusal (30_encoding.md R75). -/
def noData : Data := ⟨0, 0, 0⟩

/-- TAKING A FAULT, `raise x` by the command with command word `cw` (60_exceptions.md R182): FCAUSE
and FINFO are written, the response is status = x with zero data, and nothing else changes. -/
def takeFault (x : Cause) (cw : Word) (s : State) : State :=
  (s.setFault x cw).answer ((causeCode x).setWidth 8) noData

/-- A REFUSED response: status = 0x80 OR FCAUSE, zero data, no state changes (40_system.md R90). -/
def refuse (x : Cause) (s : State) : State :=
  s.answer (0x80#8 ||| (causeCode x).setWidth 8) noData

/-- THE ONLY WAY OUT OF A FAULT, reset (60_exceptions.md R193; 70_reset_and_hazards.md R210;
40_system.md R92): every register takes its reset value, the banks take free contents (log 5), and
OUT, IN and SRCPOS are left as they are (10_state.md R45). -/
def resetCore (s : State) : State where
  eLow := 0
  eRange := Config.maxRange
  eDirty := false
  dLow := 0
  dRange := Config.maxRange
  dCode := 0
  dTot := 0
  runtot := 0
  eTotal := 0
  dTotal := 0
  est := .invalid
  dst := .invalid
  dcs := .uninit
  fcause := none
  finfo := 0
  efreq := tableOf (Config.freeEFreq s.draws)
  ecum := tableOf (Config.freeECum s.draws)
  dfreq := tableOf (Config.freeDFreq s.draws)
  dcum := tableOf (Config.freeDCum s.draws)
  out := s.out
  src := s.src
  srcpos := s.srcpos
  inputs := s.inputs
  responses := s.responses
  draws := s.draws + 1

end Sys2Proof.Machine
end

