-- ==== Sys2Proof/Machine/Flags.lean ====
section
/-! DEFINITION. The status and protocol state: the codes of EST, DST and DCS (10_state.md R31 to R33),
the STATUS view (R36), the `fault` output (60_exceptions.md R189), the protocol condition of every
command (R184) and which commands run while faulted (40_system.md R90). There are no arithmetic
flags (10_state.md R44). -/

namespace Sys2Proof.Machine

/-- EST's value (10_state.md R31). -/
def estCode (x : EState) : BitVec 2 :=
  match x with
  | .invalid => 0
  | .counting => 1
  | .final => 2

/-- DST's value (10_state.md R32). -/
def dstCode (x : DState) : BitVec 2 :=
  match x with
  | .invalid => 0
  | .final => 2

/-- DCS's value (10_state.md R33). -/
def dcsCode (x : CoderState) : BitVec 2 :=
  match x with
  | .uninit => 0
  | .ready => 1
  | .pending => 2

/-- FCAUSE's value, 0 = NONE (10_state.md R34). -/
def fcauseCode (s : State) : BitVec 3 :=
  match s.fcause with
  | none => 0
  | some x => causeCode x

/-- FAULTED = (FCAUSE ≠ 0) (10_state.md R36). -/
def faulted (s : State) : Bool := s.fcause.isSome

/-- The level output `fault` (60_exceptions.md R189). -/
def faultOutput (s : State) : Bool := faulted s

/-- STATUS: [1:0] EST, [3:2] DST, [5:4] DCS, [6] E_DIRTY, [7] FAULTED, [31:8] 0 (10_state.md R36). -/
def statusWord (s : State) : Word :=
  0#24 ++ BitVec.ofBool (faulted s) ++ BitVec.ofBool s.eDirty ++ dcsCode s.dcs ++ dstCode s.dst ++
    estCode s.est

/-- The seven commands of 40_system.md R90 step 1, which execute even while FCAUSE ≠ 0. -/
def executesWhileFaulted (i : Instr) : Bool :=
  match i with
  | .nop => true
  | .sreset => true
  | .rdReg _ => true
  | .rdEfreq _ => true
  | .rdEcum _ => true
  | .rdDfreq _ => true
  | .rdDcum _ => true
  | .mbClear => false
  | .mbCount _ => false
  | .mbFinal => false
  | .hdrWrite => false
  | .hdrRead => false
  | .encInit => false
  | .encEncode _ _ _ => false
  | .encSym _ => false
  | .encFlush => false
  | .decInit => false
  | .decGetfreq _ => false
  | .decDecode _ _ _ => false
  | .decLookup _ => false
  | .decSym => false

/-- The protocol condition of each command, on EST, DST, DCS and E_DIRTY (60_exceptions.md R184). -/
def protocolHolds (i : Instr) (s : State) : Bool :=
  match i with
  | .nop => true
  | .sreset => true
  | .rdReg _ => true
  | .rdEfreq _ => s.est != .invalid
  | .rdEcum _ => s.est == .final
  | .rdDfreq _ => s.dst == .final
  | .rdDcum _ => s.dst == .final
  | .mbClear => !s.eDirty
  | .mbCount _ => s.est == .counting
  | .mbFinal => s.est == .counting
  | .hdrWrite => s.est == .final && !s.eDirty
  | .hdrRead => true
  | .encInit => true
  | .encEncode _ _ _ => true
  | .encSym _ => s.est == .final
  | .encFlush => true
  | .decInit => true
  | .decGetfreq _ => s.dcs == .ready
  | .decDecode _ _ _ => s.dcs == .pending
  | .decLookup _ => s.dst == .final
  | .decSym => s.dcs == .ready && s.dst == .final

end Sys2Proof.Machine
end

