-- ==== Sys2Proof/Machine/Operands.lean ====
section
/-! DEFINITION. Operands: the register numbers of RD_REG (10_state.md R37), the triple of a symbol
(42_range_encoder.md R129), the contract check of a triple (R125) and the contract condition of every
command (60_exceptions.md R185). -/

namespace Sys2Proof.Machine

/-- The value of the register numbered n, zero-extended, or none for a reserved number
(10_state.md R37, 40_system.md R93). -/
def registerValue (n : Byte) (s : State) : Option Word :=
  match n.toNat with
  | 0x00 => some (statusWord s)
  | 0x01 => some ((fcauseCode s).setWidth 32)
  | 0x02 => some s.finfo
  | 0x03 => some (s.runtot.setWidth 32)
  | 0x04 => some (s.eTotal.setWidth 32)
  | 0x05 => some (s.dTotal.setWidth 32)
  | 0x06 => some (s.dTot.setWidth 32)
  | 0x10 => some s.eLow
  | 0x11 => some s.eRange
  | 0x20 => some s.dLow
  | 0x21 => some s.dRange
  | 0x22 => some s.dCode
  | _ => none

/-- TripleOf(CUM, total, s): (start, width), on naturals (42_range_encoder.md R129; log 11). -/
def tripleOf (cum : Table 18) (sym : Nat) : Nat × Nat :=
  let start := if sym > 0 then (readEntry cum (sym - 1)).toNat else 0
  (start, (readEntry cum sym).toNat - start)

/-- CheckTriple(start, width, total), on naturals, so the sum does not wrap (42_range_encoder.md R125,
30_encoding.md R73). -/
def checkTriple (start width total : Nat) : Bool :=
  decide (1 ≤ width ∧ 1 ≤ total ∧ total < Config.maxTotal ∧ start + width ≤ total)

/-- The contract condition of each command, checked before any state changes (60_exceptions.md R185). -/
def contractHolds (i : Instr) (s : State) : Bool :=
  match i with
  | .nop => true
  | .sreset => true
  | .rdReg _ => true
  | .rdEfreq _ => true
  | .rdEcum _ => true
  | .rdDfreq _ => true
  | .rdDcum _ => true
  | .mbClear => true
  | .mbCount _ => true
  | .mbFinal => true
  | .hdrWrite => true
  | .hdrRead => true
  | .encInit => true
  | .encEncode start width total => checkTriple start.toNat width.toNat total.toNat
  | .encSym sym =>
    checkTriple (tripleOf s.ecum sym.toNat).1 (tripleOf s.ecum sym.toNat).2 s.eTotal.toNat
  | .encFlush => true
  | .decInit => true
  | .decGetfreq total => decide (1 ≤ total.toNat ∧ total.toNat < Config.maxTotal)
  | .decDecode start width total =>
    total == s.dTot.setWidth 32 && checkTriple start.toNat width.toNat total.toNat
  | .decLookup _ => true
  | .decSym => true

/-- What becomes of a command's pseudocode when FCAUSE = 0 (40_system.md R90 steps 5 and 6): the
response with status 0x00, or a fault taken in the state the raise left (60_exceptions.md R182). -/
def conclude (cw : Word) (r : Res Data) : Host.Outcome State Fault Refusal :=
  match r with
  | .ok d s => .next (s.answer 0 d)
  | .raised x s => .next (takeFault x cw s)
  | .diverged => .fault .renormDiverges

/-- While FCAUSE = x ≠ 0 (40_system.md R90 step 1): a command that is none of the seven, or whose own
rule would raise, is refused; another is executed. -/
def runFaulted (x : Cause) (i : Instr) (r : Res Data) (s : State) :
    Host.Outcome State Fault Refusal :=
  if executesWhileFaulted i && protocolHolds i s && contractHolds i s then
    match r with
    | .ok d t => .next (t.answer 0 d)
    | .raised _ _ => .next (refuse x s)
    | .diverged => .fault .renormDiverges
  else .next (refuse x s)

/-- DISPATCH of a decoded command (40_system.md R90), `r` being the result of its pseudocode from `s`:
the faulted state first, then the protocol condition, then the contract condition, then `r`. -/
def runCommand (i : Instr) (r : Res Data) (s : State) : Host.Outcome State Fault Refusal :=
  match s.fcause with
  | some x => runFaulted x i r s
  | none =>
    if !protocolHolds i s then .next (takeFault .protocol (cwOf i) s)
    else if !contractHolds i s then .next (takeFault .contract (cwOf i) s)
    else conclude (cwOf i) r

/-- A command word that decodes to no command (40_system.md R90 steps 1 and 2, 60_exceptions.md R183). -/
def illegalCommand (cw : Word) (s : State) : Host.Outcome State Fault Refusal :=
  match s.fcause with
  | some x => .next (refuse x s)
  | none => .next (takeFault .illegalCmd cw s)

end Sys2Proof.Machine
end

