-- ==== Sys2Proof/Machine/Coder.lean ====
section
/-! DEFINITION. The procedures the encoder and the decoder share: Narrow (42_range_encoder.md R126) and
RenormCond (R128). -/

namespace Sys2Proof.Machine

/-- The top byte of a coder register, the digit a renormalisation shifts out (00_scope.md R6). -/
def topByte (v : Word) : Byte := v.extractLsb' 24 8

/-- Narrow(low, range, start, width, total): none is the defensive arm `raise CONTRACT`
(42_range_encoder.md R126; modulo 2^32, 00_scope.md R14). -/
def narrow (low range start width total : Word) : Option (Word × Word) :=
  let r := range / total
  if r = 0 then none else some (low + start * r, r * width)

/-- `stable`: the top bytes of low and of (low + range) mod 2^32 agree (00_scope.md R6,
42_range_encoder.md R128). -/
def stable (low range : Word) : Bool := decide ((low ^^^ (low + range)).toNat < Config.top)

/-- The clamp `(−low) AND (FLOOR − 1)` (42_range_encoder.md R128). -/
def clamp (low : Word) : Word := -low &&& BitVec.ofNat 32 (Config.floor - 1)

/-- RenormCond(low, range) -> (go, range'), a short-circuit disjunction (42_range_encoder.md R128,
90_conflicts.md C1). -/
def renormCond (low range : Word) : Bool × Word :=
  if stable low range then (true, range)
  else if range.toNat < Config.floor then (true, clamp low)
  else (false, range)

end Sys2Proof.Machine
end

