-- ==== Sys2Proof/Machine/Decoder.lean ====
section
/-! DEFINITION. The range decoder, 43_range_decoder.md: the procedures RenormD (R144) and Lookup (R145)
and DEC_INIT, DEC_GETFREQ, DEC_DECODE, DEC_LOOKUP and DEC_SYM (R141 to R147). -/

namespace Sys2Proof.Machine

/-- `repeat k times: b <- Pop(8); D_CODE <- (D_CODE << 8) OR b` (43_range_decoder.md R141). -/
def primeCode (k : Nat) (s : State) : Res Unit :=
  match k with
  | 0 => .ok () s
  | k + 1 =>
    (pop 8 s).bind fun b t =>
      primeCode k (t.setDec t.dLow t.dRange ((t.dCode <<< 8) ||| b.setWidth 32))

/-- The pseudocode of DEC_INIT (43_range_decoder.md R141). -/
def primeDecoder (s : State) : Res Data :=
  (primeCode 4 ((s.setDcs .uninit).setDec 0 Config.maxRange 0)).bind fun _ t =>
    respond t.dCode 0 0 (t.setDcs .ready)

/-- DEC_INIT (43_range_decoder.md R141). -/
def execDecInit (s : State) : Host.Outcome State Fault Refusal :=
  runCommand .decInit (primeDecoder s) s

/-- The pseudocode of DEC_GETFREQ up to the response (43_range_decoder.md R142): f. -/
def getFreq (total : Word) (s : State) : Res Word :=
  let r := s.dRange / total
  if r = 0 then .raised .contract s
  else
    .ok ((s.dCode - s.dLow) / r)
      (((s.setDec s.dLow r s.dCode).setTot (total.setWidth 16)).setDcs .pending)

/-- DEC_GETFREQ total (43_range_decoder.md R142). -/
def execDecGetfreq (total : Word) (s : State) : Host.Outcome State Fault Refusal :=
  runCommand (.decGetfreq total) ((getFreq total s).bind fun f t => respond f 0 0 t) s

/-- One iteration of RenormD after its Pop: take the clamp, shift the byte into D_CODE, shift D_LOW and
D_RANGE (43_range_decoder.md R144). -/
def shiftIn (rng : Word) (b : Byte) (s : State) : State :=
  s.setDec (s.dLow <<< 8) (rng <<< 8) ((s.dCode <<< 8) ||| b.setWidth 32)

/-- RenormD() -> n (43_range_decoder.md R144), `fuel` as in RenormE (log 7). -/
def renormD (fuel n : Nat) (s : State) : Res Nat :=
  match fuel with
  | 0 => .diverged
  | fuel + 1 =>
    let c := renormCond s.dLow s.dRange
    if c.1 then (pop 8 s).bind fun b t => renormD fuel (n + 1) (shiftIn c.2 b t) else .ok n s

/-- The tests RenormD may make: 4 suffice from a non-zero range, and from a zero range each iteration
pops a byte until the source is empty (log 7). -/
def decFuel (s : State) : Nat := bitsLeft s / 8 + 4

/-- The pseudocode of DEC_DECODE up to the response (43_range_decoder.md R143): the number of bytes
popped. -/
def commitTriple (start width : Word) (s : State) : Res Nat :=
  (renormD (decFuel s) 0 (s.setDec (s.dLow + start * s.dRange) (s.dRange * width) s.dCode)).bind
    fun n t => .ok n (t.setDcs .ready)

/-- DEC_DECODE start, width, total (43_range_decoder.md R143). -/
def execDecDecode (start width total : Word) (s : State) : Host.Outcome State Fault Refusal :=
  runCommand (.decDecode start width total)
    ((commitTriple start width s).bind fun n t => respond (BitVec.ofNat 32 n) 0 0 t) s

/-- The bisection of Lookup, `k` steps at most (43_range_decoder.md R145). -/
def bisect (cum : Table 18) (f k lo hi : Nat) : Nat :=
  match k with
  | 0 => lo
  | k + 1 =>
    if lo < hi then
      if (readEntry cum ((lo + hi) / 2)).toNat > f then bisect cum f k lo ((lo + hi) / 2)
      else bisect cum f k ((lo + hi) / 2 + 1) hi
    else lo

/-- The walk back over a tied run (43_range_decoder.md R145). -/
def walkBack (cum : Table 18) (m : Nat) : Nat :=
  match m with
  | 0 => 0
  | m + 1 => if readEntry cum m = readEntry cum (m + 1) then walkBack cum m else m + 1

/-- Lookup(f) -> (m, start, width), or none for LOOKUP_RANGE (43_range_decoder.md R145). -/
def lookup (cum : Table 18) (f : Word) : Option (Nat × Nat × Nat) :=
  if f.toNat ≥ (readEntry cum 255).toNat then none
  else
    let m := walkBack cum (bisect cum f.toNat 8 0 255)
    some (m, tripleOf cum m)

/-- The pseudocode of DEC_LOOKUP (43_range_decoder.md R146). -/
def lookupSymbol (f : Word) (s : State) : Res Data :=
  match lookup s.dcum f with
  | none => .raised .lookupRange s
  | some (m, start, width) =>
    respond (BitVec.ofNat 32 m) (BitVec.ofNat 32 start) (BitVec.ofNat 32 width) s

/-- DEC_LOOKUP f (43_range_decoder.md R146). -/
def execDecLookup (f : Word) (s : State) : Host.Outcome State Fault Refusal :=
  runCommand (.decLookup f) (lookupSymbol f s) s

/-- The pseudocode of DEC_SYM: DEC_GETFREQ, DEC_LOOKUP and DEC_DECODE in sequence
(43_range_decoder.md R147; log 11 for the totals no run reaches). -/
def decodeSymbol (s : State) : Res Data :=
  (getFreq (s.dTotal.setWidth 32) s).bind fun f t =>
    (lookupSymbol f t).bind fun d u =>
      (commitTriple d.d1 d.d2 u).bind fun _ v => respond d.d0 d.d1 d.d2 v

/-- DEC_SYM (43_range_decoder.md R147). -/
def execDecSym (s : State) : Host.Outcome State Fault Refusal :=
  runCommand .decSym (decodeSymbol s) s

end Sys2Proof.Machine
end

