-- ==== Sys2Proof/Machine/Encoder.lean ====
section
/-! DEFINITION. The range encoder, 42_range_encoder.md: the procedure RenormE (R127) and ENC_INIT,
ENC_ENCODE, ENC_SYM and ENC_FLUSH (R121 to R124). -/

namespace Sys2Proof.Machine

/-- ENC_INIT (42_range_encoder.md R121). -/
def execEncInit (s : State) : Host.Outcome State Fault Refusal :=
  runCommand .encInit (respond 0 0 0 ((s.setEnc 0 Config.maxRange).setDirty false)) s

/-- One iteration of RenormE after its test: take the clamp, push the top byte, shift both registers
(42_range_encoder.md R127). -/
def shiftOut (rng : Word) (s : State) : State :=
  (push 8 (topByte s.eLow).toNat s).setEnc (s.eLow <<< 8) (rng <<< 8)

/-- RenormE() -> n (42_range_encoder.md R127). The loop of the rule has no iteration limit; `fuel` is
the number of tests it may make, and 4 suffice from every non-zero range (R130; log 7). -/
def renormE (fuel n : Nat) (s : State) : Res Nat :=
  match fuel with
  | 0 => .diverged
  | fuel + 1 =>
    let c := renormCond s.eLow s.eRange
    if c.1 then renormE fuel (n + 1) (shiftOut c.2 s) else .ok n s

/-- The tests RenormE may make (log 7). -/
def encFuel : Nat := 4

/-- The pseudocode of ENC_ENCODE up to the response (42_range_encoder.md R122): the number of bytes
pushed. -/
def encodeTriple (start width total : Word) (s : State) : Res Nat :=
  let t := s.setDirty true
  match narrow t.eLow t.eRange start width total with
  | none => .raised .contract t
  | some (low, range) => renormE encFuel 0 (t.setEnc low range)

/-- ENC_ENCODE start, width, total (42_range_encoder.md R122). -/
def execEncEncode (start width total : Word) (s : State) : Host.Outcome State Fault Refusal :=
  runCommand (.encEncode start width total)
    ((encodeTriple start width total s).bind fun n t => respond (BitVec.ofNat 32 n) 0 0 t) s

/-- The pseudocode of ENC_SYM (42_range_encoder.md R123). -/
def encodeSymbol (sym : Byte) (s : State) : Res Data :=
  let start := BitVec.ofNat 32 (tripleOf s.ecum sym.toNat).1
  let width := BitVec.ofNat 32 (tripleOf s.ecum sym.toNat).2
  (encodeTriple start width (s.eTotal.setWidth 32) s).bind fun n t =>
    respond (BitVec.ofNat 32 n) start width t

/-- ENC_SYM s (42_range_encoder.md R123). -/
def execEncSym (sym : Byte) (s : State) : Host.Outcome State Fault Refusal :=
  runCommand (.encSym sym) (encodeSymbol sym s) s

/-- `repeat k times: Push(E_LOW[31:24], 8); E_LOW <- E_LOW << 8` (42_range_encoder.md R124). -/
def pushLow (k : Nat) (s : State) : State :=
  match k with
  | 0 => s
  | k + 1 => pushLow k ((push 8 (topByte s.eLow).toNat s).setEnc (s.eLow <<< 8) s.eRange)

/-- The pseudocode of ENC_FLUSH (42_range_encoder.md R124). -/
def flushCoder (s : State) : Res Data :=
  if s.eDirty then
    respond 4 0 0 (((pushLow 4 s).setEnc 0 Config.maxRange).setDirty false)
  else respond 0 0 0 s

/-- ENC_FLUSH (42_range_encoder.md R124). -/
def execEncFlush (s : State) : Host.Outcome State Fault Refusal :=
  runCommand .encFlush (flushCoder s) s

end Sys2Proof.Machine
end

