-- ==== Sys2Proof/Machine/Model.lean ====
section
/-! DEFINITION. The frequency model builder and the header codec, 41_model_builder.md: the procedures
Rescale (R103) and BuildCum (R105), and MB_CLEAR, MB_COUNT, MB_FINAL, HDR_WRITE and HDR_READ. -/

namespace Sys2Proof.Machine

/-- MB_CLEAR's pseudocode (41_model_builder.md R101). -/
def clearModel (s : State) : Res Data :=
  respond 0 0 0 ((s.setHistogram (Vector.replicate 256 0) 0).setEst .counting)

/-- MB_CLEAR (41_model_builder.md R101). -/
def execMbClear (s : State) : Host.Outcome State Fault Refusal :=
  runCommand .mbClear (clearModel s) s

/-- `v' <- floor(v / 2) + (1 if v == 1 else 0)` (41_model_builder.md R103). -/
def halve (v : Nat) : Nat := v / 2 + if v = 1 then 1 else 0

/-- Rescale of 256 counters, and their new sum (41_model_builder.md R103). -/
def rescale (counts : Vector Nat 256) : Vector Nat 256 × Nat :=
  (mapEntries halve counts, (mapEntries halve counts).toList.sum)

/-- MB_COUNT's pseudocode (41_model_builder.md R102), the counters being naturals until they are
written back (00_scope.md R11, R14; log 10). -/
def countSymbol (b : Byte) (s : State) : Res Data :=
  let v := (readEntry s.efreq b.toNat).toNat + 1
  let total := s.runtot.toNat + 1
  let counts := (mapEntries BitVec.toNat s.efreq).set b.toNat v b.isLt
  if v ≥ Config.fcap ∨ total ≥ Config.ceil then
    let r := rescale counts
    let t := s.setHistogram (mapEntries (BitVec.ofNat 10) r.1) (BitVec.ofNat 15 r.2)
    respond 1 (t.runtot.setWidth 32) 0 t
  else
    let t := s.setHistogram (mapEntries (BitVec.ofNat 10) counts) (BitVec.ofNat 15 total)
    respond 0 (t.runtot.setWidth 32) 0 t

/-- MB_COUNT b (41_model_builder.md R102). -/
def execMbCount (b : Byte) (s : State) : Host.Outcome State Fault Refusal :=
  runCommand (.mbCount b) (countSymbol b s) s

/-- The running sums of a list of naturals, after `acc` (41_model_builder.md R105). -/
def runningSums (acc : Nat) (l : List Nat) : List Nat :=
  match l with
  | [] => []
  | x :: xs => (acc + x) :: runningSums (acc + x) xs

theorem length_runningSums (acc : Nat) (l : List Nat) :
    (runningSums acc l).length = l.length := by
  induction l generalizing acc with
  | nil => rfl
  | cons x xs ih => simp [runningSums, ih]

/-- BuildCum(FREQ) -> (CUM, total) (41_model_builder.md R105). -/
def buildCum (freq : Table 10) : Table 18 × BitVec 18 :=
  let counts := freq.toList.map BitVec.toNat
  (⟨⟨(runningSums 0 counts).map (BitVec.ofNat 18)⟩, by simp [counts, length_runningSums]⟩,
    BitVec.ofNat 18 (counts.sum + 1))

/-- MB_FINAL's pseudocode (41_model_builder.md R104). -/
def finishModel (s : State) : Res Data :=
  let t := (s.setECum (buildCum s.efreq)).setEst .final
  respond (t.eTotal.setWidth 32) 0 0 t

/-- MB_FINAL (41_model_builder.md R104). -/
def execMbFinal (s : State) : Host.Outcome State Fault Refusal :=
  runCommand .mbFinal (finishModel s) s

/-- Push each entry as a 10-bit value, in order (41_model_builder.md R106). -/
def pushEntries (entries : List (BitVec 10)) (s : State) : State :=
  match entries with
  | [] => s
  | v :: rest => pushEntries rest (push 10 v.toNat s)

/-- HDR_WRITE (41_model_builder.md R106). -/
def execHdrWrite (s : State) : Host.Outcome State Fault Refusal :=
  runCommand .hdrWrite (respond 0 0 0 (pushEntries s.efreq.toList s)) s

/-- Read the last k entries of DFREQ, 256 − k to 255, in ascending order (41_model_builder.md R107). -/
def readEntries (k : Nat) (s : State) : Res Unit :=
  match k with
  | 0 => .ok () s
  | k + 1 =>
    (pop 10 s).bind fun v t => readEntries k (t.setDFreq (writeEntry t.dfreq (255 - k) v))

/-- HDR_READ's pseudocode (41_model_builder.md R107). -/
def readHeader (s : State) : Res Data :=
  (readEntries 256 ((s.setDst .invalid).setDcs .uninit)).bind fun _ t =>
    let u := t.setDCum (buildCum t.dfreq)
    if u.dTotal.toNat ≥ Config.maxTotal then .raised .modelRange u
    else respond (u.dTotal.setWidth 32) 0 0 (u.setDst .final)

/-- HDR_READ (41_model_builder.md R107). -/
def execHdrRead (s : State) : Host.Outcome State Fault Refusal :=
  runCommand .hdrRead (readHeader s) s

end Sys2Proof.Machine
end

