-- ==== Sys2Proof/Machine/System.lean ====
section
/-! DEFINITION. The system commands, 40_system.md R91 to R97. -/

namespace Sys2Proof.Machine

/-- NOP (40_system.md R91). -/
def execNop (s : State) : Host.Outcome State Fault Refusal :=
  runCommand .nop (respond 0 0 0 s) s

/-- SRESET (40_system.md R92, 70_reset_and_hazards.md R211). -/
def execSreset (s : State) : Host.Outcome State Fault Refusal :=
  runCommand .sreset (respond 0 0 0 (resetCore s)) s

/-- The pseudocode of RD_REG (40_system.md R93). -/
def readRegister (n : Byte) (s : State) : Res Data :=
  match registerValue n s with
  | none => .raised .illegalCmd s
  | some v => respond v 0 0 s

/-- RD_REG n (40_system.md R93). -/
def execRdReg (n : Byte) (s : State) : Host.Outcome State Fault Refusal :=
  runCommand (.rdReg n) (readRegister n s) s

/-- RD_EFREQ i (40_system.md R94). -/
def execRdEfreq (i : Byte) (s : State) : Host.Outcome State Fault Refusal :=
  runCommand (.rdEfreq i) (respond ((readEntry s.efreq i.toNat).setWidth 32) 0 0 s) s

/-- RD_ECUM i (40_system.md R95). -/
def execRdEcum (i : Byte) (s : State) : Host.Outcome State Fault Refusal :=
  runCommand (.rdEcum i) (respond ((readEntry s.ecum i.toNat).setWidth 32) 0 0 s) s

/-- RD_DFREQ i (40_system.md R96). -/
def execRdDfreq (i : Byte) (s : State) : Host.Outcome State Fault Refusal :=
  runCommand (.rdDfreq i) (respond ((readEntry s.dfreq i.toNat).setWidth 32) 0 0 s) s

/-- RD_DCUM i (40_system.md R97). -/
def execRdDcum (i : Byte) (s : State) : Host.Outcome State Fault Refusal :=
  runCommand (.rdDcum i) (respond ((readEntry s.dcum i.toNat).setWidth 32) 0 0 s) s

end Sys2Proof.Machine
end

