-- ==== Sys2Proof/Machine/Dispatch.lean ====
section
/-! DEFINITION. One arm per command of 30_encoding.md R76. -/

namespace Sys2Proof.Machine

def exec (i : Instr) (s : State) : Host.Outcome State Fault Refusal :=
  match i with
  | .nop => Sys2Proof.Machine.execNop s
  | .sreset => Sys2Proof.Machine.execSreset s
  | .rdReg x => Sys2Proof.Machine.execRdReg x s
  | .rdEfreq x => Sys2Proof.Machine.execRdEfreq x s
  | .rdEcum x => Sys2Proof.Machine.execRdEcum x s
  | .rdDfreq x => Sys2Proof.Machine.execRdDfreq x s
  | .rdDcum x => Sys2Proof.Machine.execRdDcum x s
  | .mbClear => Sys2Proof.Machine.execMbClear s
  | .mbCount x => Sys2Proof.Machine.execMbCount x s
  | .mbFinal => Sys2Proof.Machine.execMbFinal s
  | .hdrWrite => Sys2Proof.Machine.execHdrWrite s
  | .hdrRead => Sys2Proof.Machine.execHdrRead s
  | .encInit => Sys2Proof.Machine.execEncInit s
  | .encEncode x y z => Sys2Proof.Machine.execEncEncode x y z s
  | .encSym x => Sys2Proof.Machine.execEncSym x s
  | .encFlush => Sys2Proof.Machine.execEncFlush s
  | .decInit => Sys2Proof.Machine.execDecInit s
  | .decGetfreq x => Sys2Proof.Machine.execDecGetfreq x s
  | .decDecode x y z => Sys2Proof.Machine.execDecDecode x y z s
  | .decLookup x => Sys2Proof.Machine.execDecLookup x s
  | .decSym => Sys2Proof.Machine.execDecSym s

end Sys2Proof.Machine
end

