-- ==== Sys2Proof/Machine/CommandPort.lean ====
section
/-! DEFINITION. The command port and the host's other actions: a presented command (40_system.md R90),
`rst` (70_reset_and_hazards.md R210), a reset that cuts a command short (R210; log 6), and the host's
replacement of a bit sequence (log 3). -/

namespace Sys2Proof.Machine

/-- Run the four words presented at the command port (40_system.md R90). -/
def runWords (c : Command) (s : State) : Host.Outcome State Fault Refusal :=
  match decode c with
  | .ok i => exec i s
  | .error _ => illegalCommand c.cw s

/-- The width in bits of a command's stream transfers: 10 for the header commands, 8 for the others
(20_memory.md R57). -/
def transferBits (c : Command) : Nat :=
  match decode c with
  | .ok .hdrWrite => 10
  | .ok .hdrRead => 10
  | _ => 8

/-- `rst` when a command that would take `s` to `t` has transferred `bits` bits: OUT and SRCPOS
reflect that prefix of them, the registers take their reset values, and there is no response
(70_reset_and_hazards.md R210, 93_implementation_defined.md U9; log 6). -/
def cutShort (bits : Nat) (s t : State) : State :=
  resetCore { s with
    out := t.out.take (s.out.length + bits), srcpos := min (s.srcpos + bits) t.srcpos }

/-- A command cut short by `rst` after `k` stream transfers (log 6). -/
def abandon (c : Command) (k : Nat) (s : State) : Host.Outcome State Fault Refusal :=
  match runWords c s with
  | .next t => .next (cutShort (k * transferBits c) s t)
  | .fault x => .fault x
  | .refused x => .refused x

/-- One action of the host on the block (70_reset_and_hazards.md R223). -/
def takeEvent (e : HostEvent) (s : State) : Host.Outcome State Fault Refusal :=
  match e with
  | .command c => runWords c s
  | .rst => .next (resetCore s)
  | .rstDuring c k => abandon c k s
  | .newSource bits => .next { s with src := bits, srcpos := 0 }
  | .newSink => .next { s with out := [] }

/-- Present a command before everything else the host will do (log 1). -/
def presentFirst (c : Command) (s : State) : State := s.setInputs (.command c :: s.inputs)

end Sys2Proof.Machine
end

