-- ==== Sys2Proof/Machine/Step.lean ====
section
/-! DEFINITION. One step: the oldest action of the host that is not yet taken (00_scope.md R16,
10_state.md R43). With none, the block is idle and holds its state (60_exceptions.md R196; log 1). -/

namespace Sys2Proof.Machine

def step (s : State) : Host.Outcome State Fault Refusal :=
  match s.inputs with
  | [] => .next s
  | e :: rest => takeEvent e (s.setInputs rest)

/-- The command whose opcode-table bits are `w` stands next at the command port (log 1, log 12). -/
def State.withFetchWord (s : State) (nbits w : Nat) : State := presentFirst (commandOfBits nbits w) s

end Sys2Proof.Machine
end

