-- ==== Sys2Proof/Safety.lean ====
section
/-! DEFINITION. The terms the claims are stated in: the three kinds of answer (30_encoding.md R75), the
invariants of 10_state.md R47, which states may not be told apart (R49), the renormalisation loop as
arithmetic on a pair (42_range_encoder.md R127, R128), and the host's command sequences of
44_message_procedures.md R160 and R161. -/

namespace Sys2Proof.Machine

/-! ### The three kinds of answer -/

/-- `s` with the response of a command executed without fault: status 0x00 (30_encoding.md R75). -/
def answered (s : State) (d0 d1 d2 : Word) : State :=
  { s with responses := s.responses ++ [⟨0x00, d0, d1, d2⟩] }

/-- Status bits [6:0] of a fault (60_exceptions.md R180). -/
def faultStatus (x : Cause) : BitVec 8 :=
  match x with
  | .illegalCmd => 0x01
  | .protocol => 0x02
  | .contract => 0x03
  | .srcUnderflow => 0x04
  | .lookupRange => 0x05
  | .modelRange => 0x06

/-- `s` after `raise x` by a command word: FCAUSE, FINFO and the response (60_exceptions.md R182). -/
def faultedWith (s : State) (x : Cause) (cw : Word) : State :=
  { s with
    fcause := some x, finfo := cw, responses := s.responses ++ [⟨faultStatus x, 0, 0, 0⟩] }

/-- `s` after a refusal while FCAUSE = x (40_system.md R90 step 1). -/
def refusedIn (s : State) (x : Cause) : State :=
  { s with responses := s.responses ++ [⟨0x80 ||| faultStatus x, 0, 0, 0⟩] }

/-! ### Invariants (10_state.md R47) -/

/-- The sum of entries 0..i of a frequency table, as a natural number (10_state.md R39). -/
def prefixSum (freq : Table 10) (i : Nat) : Nat := ((freq.toList.take (i + 1)).map BitVec.toNat).sum

/-- The predicate P of 42_range_encoder.md R130; it implies R47 (a). -/
abbrev IntervalOk (low range : Word) : Prop :=
  Config.floor ≤ range.toNat ∧ low.toNat + range.toNat ≤ 2 ^ 32 ∧
    (low.toNat + range.toNat = 2 ^ 32 → Config.top ≤ low.toNat) ∧
    renormCond low range = (false, range)

/-- R47 (c), with what R130 (2) needs of it: `low`, the divided range and its divisor. -/
abbrev PendingOk (low range : Word) (tot : BitVec 16) : Prop :=
  1 ≤ range.toNat ∧ 1 ≤ tot.toNat ∧ low.toNat + range.toNat * tot.toNat ≤ 2 ^ 32 ∧
    (low.toNat + range.toNat * tot.toNat = 2 ^ 32 → Config.top ≤ low.toNat)

/-- The builder's bound on every entry (10_state.md R38). -/
abbrev EntriesOk (freq : Table 10) : Prop := ∀ i < 256, (readEntry freq i).toNat ≤ Config.fmax

/-- A cumulative table and total that belong to a frequency table (41_model_builder.md R105). -/
abbrev ModelOk (freq : Table 10) (cum : Table 18) (total : BitVec 18) : Prop :=
  (∀ i < 256, (readEntry cum i).toNat = prefixSum freq i) ∧
    total.toNat = (readEntry cum 255).toNat + 1

/-- R47 (a), (d), (e): the encode side of a fault-free block. -/
abbrev EncodeSideOk (s : State) : Prop :=
  IntervalOk s.eLow s.eRange ∧
    (s.est = .counting →
      s.runtot.toNat = prefixSum s.efreq 255 ∧ s.runtot.toNat ≤ 16383 ∧ EntriesOk s.efreq) ∧
    (s.est = .final →
      ModelOk s.efreq s.ecum s.eTotal ∧ s.eTotal.toNat ≤ Config.ceil ∧ EntriesOk s.efreq)

/-- R47 (b), (c), (f): the decode side of a fault-free block. -/
abbrev DecodeSideOk (s : State) : Prop :=
  (s.dcs = .ready → IntervalOk s.dLow s.dRange) ∧
    (s.dcs = .pending → PendingOk s.dLow s.dRange s.dTot) ∧
    (s.dst = .final → ModelOk s.dfreq s.dcum s.dTotal ∧ s.dTotal.toNat < Config.maxTotal)

/-- The invariants of R47 "with FCAUSE = 0", and SRCPOS within IN (20_memory.md R53). -/
abbrev Inv (s : State) : Prop :=
  s.srcpos ≤ s.src.length ∧ (s.fcause = none → EncodeSideOk s ∧ DecodeSideOk s)

/-! ### States that no command can tell apart (10_state.md R49) -/

/-- `t` is `s` but for the contents of banks that EST or DST says nothing may read. -/
def AgreeReadable (s t : State) : Prop :=
  t = { s with efreq := t.efreq, ecum := t.ecum, dfreq := t.dfreq, dcum := t.dcum } ∧
    (s.est ≠ .invalid → t.efreq = s.efreq) ∧ (s.est = .final → t.ecum = s.ecum) ∧
    (s.dst = .final → t.dfreq = s.dfreq ∧ t.dcum = s.dcum)

/-! ### The renormalisation loop on a pair (low, range) (42_range_encoder.md R127) -/

/-- The loop's test on a pair. -/
def needsMore (p : Word × Word) : Bool := (renormCond p.1 p.2).1

/-- What one iteration makes of a pair: the clamp, if one applies, then both shifts. -/
def renormStep (p : Word × Word) : Word × Word := (p.1 <<< 8, (renormCond p.1 p.2).2 <<< 8)

/-- The pair after k iterations. -/
def renormAfter (k : Nat) (p : Word × Word) : Word × Word :=
  match k with
  | 0 => p
  | k + 1 => renormAfter k (renormStep p)

/-- The loop makes exactly n iterations from p. -/
abbrev RenormCount (p : Word × Word) (n : Nat) : Prop :=
  (∀ k < n, needsMore (renormAfter k p) = true) ∧ needsMore (renormAfter n p) = false

/-- The bits the encoder pushes in n iterations: the top byte of each `low`, most significant first. -/
def shiftedOut (n : Nat) (p : Word × Word) : List Bool :=
  (List.range n).flatMap fun k => bitsMsbFirst 8 (topByte (renormAfter k p).1).toNat

/-- D_CODE after k bytes of a bit sequence have been shifted into its low end (43_range_decoder.md
R144). -/
def codeAfter (k : Nat) (code : Word) (bits : List Bool) : Word :=
  match k with
  | 0 => code
  | k + 1 =>
    codeAfter k ((code <<< 8) ||| BitVec.ofNat 32 (natOfBits (bits.take 8))) (bits.drop 8)

/-- The pair a triple narrows (low, range) to, in natural numbers and reduced at the end
(42_range_encoder.md R126). -/
def narrowedPair (low range : Word) (start width total : Nat) : Word × Word :=
  (BitVec.ofNat 32 (low.toNat + start * (range.toNat / total)),
    BitVec.ofNat 32 (range.toNat / total * width))

/-- `s` after an encode step whose loop makes n iterations from p: the two registers, the dirty flag
and the pushed bytes, nothing else (42_range_encoder.md R122). -/
def encodedState (s : State) (p : Word × Word) (n : Nat) : State :=
  { s with
    eLow := (renormAfter n p).1, eRange := (renormAfter n p).2, eDirty := true,
    out := s.out ++ shiftedOut n p }

/-- The bits of IN that are left. -/
def unread (s : State) : List Bool := s.src.drop s.srcpos

/-- `s` after k iterations of the decoder's loop from p: the three registers and SRCPOS, nothing else
(43_range_decoder.md R144). -/
def decodedState (s : State) (p : Word × Word) (k : Nat) : State :=
  { s with
    dLow := (renormAfter k p).1, dRange := (renormAfter k p).2,
    dCode := codeAfter k s.dCode (unread s), srcpos := s.srcpos + 8 * k }

/-- The start of a symbol's interval (42_range_encoder.md R129). -/
def startOf (cum : Table 18) (m : Nat) : Nat := if m = 0 then 0 else (readEntry cum (m - 1)).toNat

/-- m is the smallest index whose cumulative entry is above f (43_range_decoder.md R145). -/
abbrev LeastAbove (cum : Table 18) (f m : Nat) : Prop :=
  m < 256 ∧ f < (readEntry cum m).toNat ∧ ∀ j < m, (readEntry cum j).toNat ≤ f

/-- The header of a frequency table: 256 ten-bit values (30_encoding.md R83). -/
def headerBits (freq : Table 10) : List Bool :=
  freq.toList.flatMap fun v => bitsMsbFirst 10 v.toNat

/-! ### The host's command sequences -/

/-- ENCODE_MESSAGE S (44_message_procedures.md R160). -/
def encodeMessage (S : List Byte) : List Instr :=
  [.mbClear] ++ S.map .mbCount ++ [.mbFinal, .hdrWrite, .encInit] ++ S.map .encSym ++ [.encFlush]

/-- DECODE_MESSAGE N (44_message_procedures.md R161). -/
def decodeMessage (n : Nat) : List Instr :=
  [.hdrRead] ++ if n = 0 then [] else [.decInit] ++ List.replicate n .decSym

/-- The host presents a command sequence and nothing else. -/
def presenting (l : List Instr) (s : State) : State :=
  s.setInputs (l.map fun i => .command (encode i))

/-- k steps of the machine. -/
def runSteps (k : Nat) (s : State) : Host.Outcome State Fault Refusal :=
  match k with
  | 0 => .next s
  | k + 1 =>
    match step s with
    | .next t => runSteps k t
    | .fault x => .fault x
    | .refused x => .refused x

/-- A sequence of responses none of which reports a fault or a refusal (70_reset_and_hazards.md
R224). -/
abbrev Clean (rs : List Response) : Prop := ∀ r ∈ rs, r.status = 0

end Sys2Proof.Machine
end

