-- ==== Sys2Proof/Certificates/Slice0/Obligations.lean ====
section
/-! DEFINITION. The statements for the provers. A statement about every state holds in states no run
reaches; where it would not, an invariant of Safety.lean is a premise. A frame is said by an equation of
the whole next state: `{ s with … }` names everything that changes. -/

open Sys2Proof Sys2Proof.Machine

/-! ### Encoding -/

/-- Decoding the encoding of any command gives the command back, with every operand at every value
(30_encoding.md R71 to R73, R76). -/
def Obligations.DecodeOfEncodeIsIdentity : Prop := ∀ i : Instr, decode (encode i) = .ok i

/-- A command word that decodes is the word the encoder writes for what it decodes to, so no two words
mean the same command (30_encoding.md R71, R72). -/
def Obligations.DecodedWordIsTheEncodedWord : Prop :=
  ∀ (c : Command) (i : Instr), decode c = .ok i → (encode i).cw = c.cw

/-- A command decodes exactly when it is legal by R71, R72 and R77, exactly when its word matches a row
of the opcode table of R76, and then it matches one row only. -/
def Obligations.DecodeAcceptsExactlyTheTable : Prop :=
  (∀ c : Command, (∃ i, decode c = .ok i) ↔ c.wellFormed = true) ∧
  (∀ c : Command, (∃ i, decode c = .ok i) ↔ ∃ r ∈ opcodeTable, r.matchesWord c.cw = true) ∧
  ∀ r ∈ opcodeTable, ∀ q ∈ opcodeTable, ∀ w : Word,
    r.matchesWord w = true → q.matchesWord w = true → r = q

/-- An operand word a format does not use is ignored, whatever its value (30_encoding.md R70, R72): only
ENC_ENCODE and DEC_DECODE (ABC) and DEC_GETFREQ and DEC_LOOKUP (A) use operand words. -/
def Obligations.UnusedOperandWordsAreIgnored : Prop :=
  ∀ (s : State) (cw a b c a' b' c' : Word) (rest : List HostEvent),
    (cw.toNat / 2 ^ 24 ∉ [0x21, 0x31, 0x32, 0x33] →
      step { s with inputs := .command ⟨cw, a, b, c⟩ :: rest } =
        step { s with inputs := .command ⟨cw, a', b', c'⟩ :: rest }) ∧
    (cw.toNat / 2 ^ 24 ∈ [0x31, 0x33] →
      step { s with inputs := .command ⟨cw, a, b, c⟩ :: rest } =
        step { s with inputs := .command ⟨cw, a, b', c'⟩ :: rest })

/-- Words of every family written out from 30_encoding.md R76 and R80 decode to what they stand for. -/
def Obligations.SampleWordsDecode : Prop :=
  decode ⟨0x00000000, 0, 0, 0⟩ = .ok .nop ∧
  decode ⟨0x02000011, 0, 0, 0⟩ = .ok (.rdReg 0x11) ∧
  decode ⟨0x11000041, 0, 0, 0⟩ = .ok (.mbCount 0x41) ∧
  decode ⟨0x14000000, 0, 0, 0⟩ = .ok .hdrRead ∧
  decode ⟨0x21000000, 5, 2, 12⟩ = .ok (.encEncode 5 2 12) ∧
  decode ⟨0x31000000, 12, 0, 0⟩ = .ok (.decGetfreq 12) ∧
  decode ⟨0x34000000, 0, 0, 0⟩ = .ok .decSym ∧
  (∃ e, decode ⟨0x03000000, 0, 0, 0⟩ = .error e) ∧
  (∃ e, decode ⟨0x10000100, 0, 0, 0⟩ = .error e) ∧
  ∃ e, decode ⟨0x3100000C, 0, 0, 0⟩ = .error e

/-! ### The step -/

/-- A step runs the command the host presented, decoded, on the block with that command taken
(00_scope.md R16, 40_system.md R90). -/
def Obligations.StepRunsTheDecodedCommand : Prop :=
  ∀ (s : State) (c : Command) (i : Instr) (rest : List HostEvent),
    s.inputs = .command c :: rest → decode c = .ok i → step s = exec i { s with inputs := rest }

/-- With nothing presented the block holds its state; a fresh source or sink changes nothing else (the
model's own choice of the host's actions, logs 1 and 3; 60_exceptions.md R196, R193). -/
def Obligations.IdleAndFreshStreamSteps : Prop :=
  ∀ (s : State) (bits : List Bool) (rest : List HostEvent),
    (s.inputs = [] → step s = .next s) ∧
    (s.inputs = .newSource bits :: rest →
      step s = .next { s with inputs := rest, src := bits, srcpos := 0 }) ∧
    (s.inputs = .newSink :: rest → step s = .next { s with inputs := rest, out := [] })

/-- Every command and every step ends, from every state: no loop runs for ever (70_reset_and_hazards.md
R225). -/
def Obligations.EveryStepAnswersANextState : Prop :=
  (∀ (i : Instr) (s : State), ∃ t, exec i s = .next t) ∧ ∀ s : State, ∃ t, step s = .next t

/-- Exactly one response follows each command, and its status says what became of it
(30_encoding.md R74, R75; 60_exceptions.md R182). -/
def Obligations.EachCommandGivesOneResponse : Prop :=
  ∀ (i : Instr) (s t : State), exec i s = .next t →
    ∃ r, t.responses = s.responses ++ [r] ∧
      ((r.status = 0 ∧ (t.fcause = s.fcause ∨ i = .sreset)) ∨
       (∃ x, s.fcause = none ∧ t.fcause = some x ∧ t.finfo = (encode i).cw ∧
          r = ⟨faultStatus x, 0, 0, 0⟩) ∨
       ∃ x, s.fcause = some x ∧ t = refusedIn s x)

/-! ### Reset -/

/-- The values reset leaves in the registers, the STATUS view and the fault output (10_state.md R20,
R36; 70_reset_and_hazards.md R210). The bank contents, which the spec leaves unspecified, are not
stated. -/
def Obligations.ResetStateHasTheStatedValues : Prop :=
  State.reset.eLow = 0 ∧ State.reset.eRange = 0xFFFFFFFF ∧ State.reset.eDirty = false ∧
  State.reset.dLow = 0 ∧ State.reset.dRange = 0xFFFFFFFF ∧ State.reset.dCode = 0 ∧
  State.reset.dTot = 0 ∧ State.reset.runtot = 0 ∧ State.reset.eTotal = 0 ∧
  State.reset.dTotal = 0 ∧ State.reset.est = .invalid ∧ State.reset.dst = .invalid ∧
  State.reset.dcs = .uninit ∧ State.reset.fcause = none ∧ State.reset.finfo = 0 ∧
  statusWord State.reset = 0 ∧ faultOutput State.reset = false

/-- `rst` puts every register at its reset value, leaves the banks with some contents, and does not touch
OUT, IN and SRCPOS (70_reset_and_hazards.md R210). -/
def Obligations.RstPutsRegistersAtResetValues : Prop :=
  ∀ (s : State) (rest : List HostEvent), s.inputs = .rst :: rest →
    ∃ ef ec df dc n, step s = .next { State.reset with
      efreq := ef, ecum := ec, dfreq := df, dcum := dc, out := s.out, src := s.src,
      srcpos := s.srcpos, inputs := rest, responses := s.responses, draws := n }

/-- `rst` that cuts a command short: no response, the registers at their reset values, and OUT and SRCPOS
reflect a prefix of the command's transfers, of 10 bits for the header commands and 8 for the others
(70_reset_and_hazards.md R210; the model's choice of the host's action, log 6). -/
def Obligations.RstCutsACommandShort : Prop :=
  ∀ (s full : State) (c : Command) (k : Nat) (rest : List HostEvent),
    s.inputs = .rstDuring c k :: rest →
    step { s with inputs := .command c :: rest } = .next full →
    ∃ ef ec df dc n pushed,
      full.out = s.out ++ pushed ∧
      step s = .next { State.reset with
        efreq := ef, ecum := ec, dfreq := df, dcum := dc,
        out := s.out ++ pushed.take
          (k * if c.cw = 0x13000000 ∨ c.cw = 0x14000000 then 10 else 8),
        src := s.src,
        srcpos := min (s.srcpos + k * if c.cw = 0x13000000 ∨ c.cw = 0x14000000 then 10 else 8)
          full.srcpos,
        inputs := rest, responses := s.responses, draws := n }

/-- SRESET (40_system.md R92): executed in every state, faulted or not; every register at its reset
value; the banks with some contents; OUT, IN and SRCPOS untouched; no other command clears a fault. -/
def Obligations.SresetRestoresTheResetState : Prop :=
  encode .sreset = ⟨0x01000000, 0, 0, 0⟩ ∧
  (∀ s : State, ∃ ef ec df dc n, exec .sreset s = .next (answered { State.reset with
      efreq := ef, ecum := ec, dfreq := df, dcum := dc, out := s.out, src := s.src,
      srcpos := s.srcpos, inputs := s.inputs, responses := s.responses, draws := n } 0 0 0)) ∧
  ∀ (i : Instr) (s t : State) (x : Cause),
    i ≠ .sreset → s.fcause = some x → exec i s = .next t → t.fcause = some x

/-! ### System commands -/

/-- NOP (40_system.md R91): from any state, faulted or not, nothing changes and the response is 0. -/
def Obligations.NopChangesNothing : Prop :=
  encode .nop = ⟨0x00000000, 0, 0, 0⟩ ∧
  ∀ s : State, exec .nop s = .next (answered s 0 0 0)

/-- RD_REG (40_system.md R93): the numbers of 10_state.md R37 answer the register, zero-extended, in any
state; a reserved number raises ILLEGAL_CMD, or is refused while faulted. -/
def Obligations.RdRegReadsTheNumberedRegister : Prop :=
  (∀ n : Byte, encode (.rdReg n) = ⟨0x02000000 ||| n.setWidth 32, 0, 0, 0⟩) ∧
  ∀ s : State,
    exec (.rdReg 0x00) s = .next (answered s (statusWord s) 0 0) ∧
    (s.fcause = none → exec (.rdReg 0x01) s = .next (answered s 0 0 0)) ∧
    (∀ x, s.fcause = some x →
      exec (.rdReg 0x01) s = .next (answered s ((faultStatus x).setWidth 32) 0 0)) ∧
    exec (.rdReg 0x02) s = .next (answered s s.finfo 0 0) ∧
    exec (.rdReg 0x03) s = .next (answered s (s.runtot.setWidth 32) 0 0) ∧
    exec (.rdReg 0x04) s = .next (answered s (s.eTotal.setWidth 32) 0 0) ∧
    exec (.rdReg 0x05) s = .next (answered s (s.dTotal.setWidth 32) 0 0) ∧
    exec (.rdReg 0x06) s = .next (answered s (s.dTot.setWidth 32) 0 0) ∧
    exec (.rdReg 0x10) s = .next (answered s s.eLow 0 0) ∧
    exec (.rdReg 0x11) s = .next (answered s s.eRange 0 0) ∧
    exec (.rdReg 0x20) s = .next (answered s s.dLow 0 0) ∧
    exec (.rdReg 0x21) s = .next (answered s s.dRange 0 0) ∧
    exec (.rdReg 0x22) s = .next (answered s s.dCode 0 0) ∧
    ∀ n : Byte,
      n.toNat ∉ [0x00, 0x01, 0x02, 0x03, 0x04, 0x05, 0x06, 0x10, 0x11, 0x20, 0x21, 0x22] →
      (s.fcause = none →
        exec (.rdReg n) s = .next (faultedWith s .illegalCmd (0x02000000 ||| n.setWidth 32))) ∧
      ∀ x, s.fcause = some x → exec (.rdReg n) s = .next (refusedIn s x)

/-- STATUS, register 0x00, as a number: EST in bits 1..0, DST in 3..2, DCS in 5..4, E_DIRTY in 6, FAULTED
in 7, and nothing above (10_state.md R36). -/
def Obligations.StatusIsComposedOfFiveFields : Prop :=
  ∀ s : State, ∃ v : Word, exec (.rdReg 0x00) s = .next (answered s v 0 0) ∧
    v.toNat =
      (match s.est with
        | .invalid => 0
        | .counting => 1
        | .final => 2) +
      4 * (match s.dst with
        | .invalid => 0
        | .final => 2) +
      16 * (match s.dcs with
        | .uninit => 0
        | .ready => 1
        | .pending => 2) +
      64 * s.eDirty.toNat + 128 * s.fcause.isSome.toNat

/-- RD_EFREQ, RD_ECUM, RD_DFREQ and RD_DCUM (40_system.md R94 to R97): with the bank readable, in any
fault state, the entry zero-extended; otherwise PROTOCOL, or a refusal while faulted. -/
def Obligations.TableReadsAnswerTheEntry : Prop :=
  ∀ (i : Byte) (s : State),
    (encode (.rdEfreq i) = ⟨0x04000000 ||| i.setWidth 32, 0, 0, 0⟩ ∧
      encode (.rdEcum i) = ⟨0x05000000 ||| i.setWidth 32, 0, 0, 0⟩ ∧
      encode (.rdDfreq i) = ⟨0x06000000 ||| i.setWidth 32, 0, 0, 0⟩ ∧
      encode (.rdDcum i) = ⟨0x07000000 ||| i.setWidth 32, 0, 0, 0⟩) ∧
    (s.est ≠ .invalid → exec (.rdEfreq i) s =
      .next (answered s ((s.efreq.toList.getD i.toNat 0).setWidth 32) 0 0)) ∧
    (s.est = .final → exec (.rdEcum i) s =
      .next (answered s ((s.ecum.toList.getD i.toNat 0).setWidth 32) 0 0)) ∧
    (s.dst = .final →
      exec (.rdDfreq i) s =
        .next (answered s ((s.dfreq.toList.getD i.toNat 0).setWidth 32) 0 0) ∧
      exec (.rdDcum i) s =
        .next (answered s ((s.dcum.toList.getD i.toNat 0).setWidth 32) 0 0)) ∧
    (s.fcause = none →
      (s.est = .invalid →
        exec (.rdEfreq i) s = .next (faultedWith s .protocol (encode (.rdEfreq i)).cw)) ∧
      (s.est ≠ .final →
        exec (.rdEcum i) s = .next (faultedWith s .protocol (encode (.rdEcum i)).cw)) ∧
      (s.dst ≠ .final →
        exec (.rdDfreq i) s = .next (faultedWith s .protocol (encode (.rdDfreq i)).cw) ∧
        exec (.rdDcum i) s = .next (faultedWith s .protocol (encode (.rdDcum i)).cw))) ∧
    ∀ x, s.fcause = some x →
      (s.est = .invalid → exec (.rdEfreq i) s = .next (refusedIn s x)) ∧
      (s.est ≠ .final → exec (.rdEcum i) s = .next (refusedIn s x)) ∧
      (s.dst ≠ .final → exec (.rdDfreq i) s = .next (refusedIn s x) ∧
        exec (.rdDcum i) s = .next (refusedIn s x))

/-! ### Model builder and header -/

/-- MB_CLEAR (41_model_builder.md R101): from any EST, with no flush owed, every counter and RUNTOT are 0
and EST = COUNTING; with a flush owed it raises PROTOCOL. -/
def Obligations.MbClearStartsAHistogram : Prop :=
  encode .mbClear = ⟨0x10000000, 0, 0, 0⟩ ∧
  ∀ s : State, s.fcause = none →
    (s.eDirty = false → ∃ freq : Table 10, (∀ i < 256, readEntry freq i = 0) ∧
      exec .mbClear s =
        .next (answered { s with efreq := freq, runtot := 0, est := .counting } 0 0 0)) ∧
    (s.eDirty = true → exec .mbClear s = .next (faultedWith s .protocol 0x10000000))

/-- MB_COUNT below both triggers (41_model_builder.md R102): the one counter and RUNTOT go up by one. -/
def Obligations.MbCountIncrementsOneCounter : Prop :=
  ∀ (b : Byte) (s : State), s.fcause = none → s.est = .counting →
    (readEntry s.efreq b.toNat).toNat + 1 < 1023 → s.runtot.toNat + 1 < 16384 →
    ∃ freq : Table 10,
      (∀ i < 256, (readEntry freq i).toNat =
        (readEntry s.efreq i).toNat + if i = b.toNat then 1 else 0) ∧
      exec (.mbCount b) s = .next (answered
        { s with efreq := freq, runtot := BitVec.ofNat 15 (s.runtot.toNat + 1) }
        0 (BitVec.ofNat 32 (s.runtot.toNat + 1)) 0)

/-- MB_COUNT at a trigger (41_model_builder.md R102, R103): after the increment every counter v becomes
floor(v / 2) + (1 if v = 1), and RUNTOT their sum (which the invariant keeps within its 15 bits). -/
def Obligations.MbCountRescalesAtATrigger : Prop :=
  ∀ (b : Byte) (s : State), s.fcause = none → s.est = .counting →
    1023 ≤ (readEntry s.efreq b.toNat).toNat + 1 ∨ 16384 ≤ s.runtot.toNat + 1 →
    ∃ freq : Table 10,
      (∀ i < 256, ∀ v, v = (readEntry s.efreq i).toNat + (if i = b.toNat then 1 else 0) →
        (readEntry freq i).toNat = v / 2 + if v = 1 then 1 else 0) ∧
      exec (.mbCount b) s = .next (answered
        { s with efreq := freq, runtot := BitVec.ofNat 15 (prefixSum freq 255) }
        1 ((BitVec.ofNat 15 (prefixSum freq 255)).setWidth 32) 0)

/-- A rescale starves no symbol and makes the running total strictly smaller, at most 8448
(41_model_builder.md R103, its stated and derived consequences), in states that meet the invariant. -/
def Obligations.RescaleStarvesNoSymbolAndShrinksTheTotal : Prop :=
  ∀ (b : Byte) (s t : State), Inv s → s.fcause = none → s.est = .counting →
    1023 ≤ (readEntry s.efreq b.toNat).toNat + 1 ∨ 16384 ≤ s.runtot.toNat + 1 →
    exec (.mbCount b) s = .next t →
    (∀ i < 256, readEntry t.efreq i = 0 ↔ readEntry s.efreq i = 0 ∧ i ≠ b.toNat) ∧
    t.runtot.toNat = prefixSum t.efreq 255 ∧ t.runtot.toNat < s.runtot.toNat + 1 ∧
    t.runtot.toNat ≤ 8448

/-- MB_FINAL (41_model_builder.md R104, R105): ECUM is the prefix sums, E_TOTAL the last plus one, EST =
FINAL; the table is non-decreasing, and flat exactly at zero frequencies. -/
def Obligations.MbFinalBuildsThePrefixSums : Prop :=
  encode .mbFinal = ⟨0x12000000, 0, 0, 0⟩ ∧
  ∀ s : State, s.fcause = none →
    (s.est = .counting → ∃ (cum : Table 18) (total : BitVec 18),
      (∀ i < 256, (readEntry cum i).toNat = prefixSum s.efreq i) ∧
      total.toNat = (readEntry cum 255).toNat + 1 ∧
      (∀ i < 255, (readEntry cum i).toNat ≤ (readEntry cum (i + 1)).toNat) ∧
      (∀ i < 256, readEntry s.efreq i = 0 ↔ (readEntry cum i).toNat = startOf cum i) ∧
      exec .mbFinal s = .next (answered
        { s with ecum := cum, eTotal := total, est := .final } (total.setWidth 32) 0 0)) ∧
    (s.est ≠ .counting → exec .mbFinal s = .next (faultedWith s .protocol 0x12000000))

/-- HDR_WRITE (41_model_builder.md R106, 30_encoding.md R83): exactly 2560 bits are appended, bit 10·i + k
being bit 9 − k of EFREQ[i], and no state is written; otherwise PROTOCOL. -/
def Obligations.HdrWriteAppendsTheHeader : Prop :=
  encode .hdrWrite = ⟨0x13000000, 0, 0, 0⟩ ∧
  ∀ s : State, s.fcause = none →
    (s.est = .final → s.eDirty = false → ∃ bits : List Bool, bits.length = 2560 ∧
      (∀ i < 256, ∀ k < 10, bits[10 * i + k]? = some ((readEntry s.efreq i).toNat.testBit (9 - k))) ∧
      exec .hdrWrite s = .next (answered { s with out := s.out ++ bits } 0 0 0)) ∧
    (s.est ≠ .final ∨ s.eDirty = true →
      exec .hdrWrite s = .next (faultedWith s .protocol 0x13000000))

/-- HDR_READ with a whole header left (41_model_builder.md R107): the 256 ten-bit values, their prefix
sums and total; DST = FINAL when the total is below 65536, MODEL_RANGE with DST = INVALID otherwise;
SRCPOS advanced by 2560 and DCS = UNINIT in both. -/
def Obligations.HdrReadRebuildsTheModel : Prop :=
  ∀ s : State, s.fcause = none → 2560 ≤ (unread s).length →
    ∃ (freq : Table 10) (cum : Table 18) (total : BitVec 18),
      (∀ i < 256, (readEntry freq i).toNat = natOfBits (((unread s).drop (10 * i)).take 10)) ∧
      (∀ i < 256, (readEntry cum i).toNat = prefixSum freq i) ∧
      total.toNat = (readEntry cum 255).toNat + 1 ∧
      (total.toNat < 65536 → exec .hdrRead s = .next (answered
        { s with
          dfreq := freq, dcum := cum, dTotal := total, dst := .final, dcs := .uninit,
          srcpos := s.srcpos + 2560 } (total.setWidth 32) 0 0)) ∧
      (65536 ≤ total.toNat → exec .hdrRead s = .next (faultedWith
        { s with
          dfreq := freq, dcum := cum, dTotal := total, dst := .invalid, dcs := .uninit,
          srcpos := s.srcpos + 2560 } .modelRange 0x14000000))

/-- HDR_READ on a short source (41_model_builder.md R107, 60_exceptions.md R186, R192): the entries before
the failing one are written, the failing Pop takes nothing, DST = INVALID and DCS = UNINIT. -/
def Obligations.HdrReadUnderflowLeavesThePrefix : Prop :=
  ∀ s : State, s.fcause = none → (unread s).length < 2560 →
    ∃ freq : Table 10,
      (∀ i < (unread s).length / 10,
        (readEntry freq i).toNat = natOfBits (((unread s).drop (10 * i)).take 10)) ∧
      (∀ i < 256, (unread s).length / 10 ≤ i → readEntry freq i = readEntry s.dfreq i) ∧
      exec .hdrRead s = .next (faultedWith
        { s with
          dfreq := freq, dst := .invalid, dcs := .uninit,
          srcpos := s.srcpos + 10 * ((unread s).length / 10) } .srcUnderflow 0x14000000)

/-- HEADER FIDELITY (41_model_builder.md R108): a block that reads the header another wrote has that
block's tables and total, and no fault. -/
def Obligations.HeaderReadsBackTheTables : Prop :=
  ∀ (s t u : State) (bits rest : List Bool),
    Inv s → s.fcause = none → s.est = .final → s.eDirty = false → exec .hdrWrite s = .next t →
    t.out = s.out ++ bits → u.fcause = none → unread u = bits ++ rest →
    ∃ v, exec .hdrRead u = .next v ∧ v.fcause = none ∧ v.dst = .final ∧ v.dfreq = s.efreq ∧
      v.dcum = s.ecum ∧ v.dTotal = s.eTotal ∧ unread v = rest

/-- Every byte of the counted input has a frequency of at least 1, every other byte has 0, every entry is
at most 1022 and their sum at most 16383 (41_model_builder.md R100, R109), and no command faults. -/
def Obligations.CountedBytesHaveFrequencies : Prop :=
  ∀ (S : List Byte) (s : State), s.fcause = none → s.eDirty = false →
    ∃ t, runSteps (S.length + 2) (presenting ([.mbClear] ++ S.map .mbCount ++ [.mbFinal]) s) =
        .next t ∧
      t.fcause = none ∧ t.est = .final ∧
      (∀ b : Byte, (b ∈ S → 1 ≤ (readEntry t.efreq b.toNat).toNat) ∧
        (b ∉ S → readEntry t.efreq b.toNat = 0) ∧ (readEntry t.efreq b.toNat).toNat ≤ 1022) ∧
      prefixSum t.efreq 255 ≤ 16383 ∧ t.eTotal.toNat = prefixSum t.efreq 255 + 1

/-! ### Encoder -/

/-- ENC_INIT (42_range_encoder.md R121). -/
def Obligations.EncInitConstructsTheCoder : Prop :=
  encode .encInit = ⟨0x20000000, 0, 0, 0⟩ ∧
  ∀ s : State, s.fcause = none → exec .encInit s =
    .next (answered { s with eLow := 0, eRange := 0xFFFFFFFF, eDirty := false } 0 0 0)

/-- ENC_ENCODE (42_range_encoder.md R122, R126, R127): with a contract that holds and a quotient of at
least 1, the interval is narrowed, the loop makes some n ≤ 3 iterations and pushes n bytes, and a flush
is owed. -/
def Obligations.EncEncodeNarrowsAndRenormalises : Prop :=
  ∀ (start width total : Word) (s : State), s.fcause = none → 1 ≤ width.toNat →
    1 ≤ total.toNat → total.toNat < 65536 → start.toNat + width.toNat ≤ total.toNat →
    total.toNat ≤ s.eRange.toNat →
    ∀ p, p = narrowedPair s.eLow s.eRange start.toNat width.toNat total.toNat →
    ∃ n ≤ 3, RenormCount p n ∧ exec (.encEncode start width total) s =
      .next (answered (encodedState s p n) (BitVec.ofNat 32 n) 0 0)

/-- ENC_SYM (42_range_encoder.md R123, R129): the triple of the symbol, then as ENC_ENCODE. -/
def Obligations.EncSymEncodesTheSymbolsTriple : Prop :=
  ∀ (sym : Byte) (s : State) (start width : Nat), s.fcause = none → s.est = .final →
    start = startOf s.ecum sym.toNat → (readEntry s.ecum sym.toNat).toNat = start + width →
    1 ≤ width → start + width ≤ s.eTotal.toNat → s.eTotal.toNat < 65536 →
    s.eTotal.toNat ≤ s.eRange.toNat →
    ∀ p, p = narrowedPair s.eLow s.eRange start width s.eTotal.toNat →
    ∃ n ≤ 3, RenormCount p n ∧ exec (.encSym sym) s =
      .next (answered (encodedState s p n)
        (BitVec.ofNat 32 n) (BitVec.ofNat 32 start) (BitVec.ofNat 32 width))

/-- ENC_FLUSH (42_range_encoder.md R124): with a flush owed, the 32 bits of E_LOW, bit 31 first, are
appended and the coder is constructed anew; with none, nothing changes. -/
def Obligations.EncFlushEmitsLowOnce : Prop :=
  encode .encFlush = ⟨0x23000000, 0, 0, 0⟩ ∧
  ∀ s : State, s.fcause = none →
    (s.eDirty = true → ∃ bits : List Bool, bits.length = 32 ∧
      (∀ k < 32, bits[k]? = some (s.eLow.getLsbD (31 - k))) ∧
      exec .encFlush s = .next (answered
        { s with eLow := 0, eRange := 0xFFFFFFFF, eDirty := false, out := s.out ++ bits } 4 0 0)) ∧
    (s.eDirty = false → exec .encFlush s = .next (answered s 0 0 0))

/-- RenormCond (42_range_encoder.md R128, 90_conflicts.md C1) in natural numbers: equal top bytes of low
and (low + range) mod 2^32 go on with the range unchanged, whatever the range; else a range below 2^16
goes on clamped to (−low) mod 2^16; else stop. -/
def Obligations.RenormCondIsAShortCircuit : Prop :=
  ∀ low range : Word,
    (low.toNat / 2 ^ 24 = (low.toNat + range.toNat) % 2 ^ 32 / 2 ^ 24 →
      renormCond low range = (true, range)) ∧
    (low.toNat / 2 ^ 24 ≠ (low.toNat + range.toNat) % 2 ^ 32 / 2 ^ 24 →
      (range.toNat < 2 ^ 16 →
        renormCond low range = (true, BitVec.ofNat 32 ((2 ^ 32 - low.toNat) % 2 ^ 32 % 2 ^ 16))) ∧
      (2 ^ 16 ≤ range.toNat → renormCond low range = (false, range)))

/-- From a pair that meets P, an accepted triple narrows without any operation wrapping, the quotient is
at least 1, and the new interval lies inside the old one (42_range_encoder.md R130 (2)). -/
def Obligations.NarrowNeverWraps : Prop :=
  ∀ low range start width total : Word, IntervalOk low range →
    checkTriple start.toNat width.toNat total.toNat = true →
    ∃ low' range', narrow low range start width total = some (low', range') ∧
      1 ≤ range.toNat / total.toNat ∧
      low'.toNat = low.toNat + start.toNat * (range.toNat / total.toNat) ∧
      range'.toNat = range.toNat / total.toNat * width.toNat ∧
      low'.toNat + range'.toNat ≤ low.toNat + range.toNat

/-! ### Decoder -/

/-- DEC_INIT (43_range_decoder.md R141): four bytes, most significant first, prime D_CODE; on a short
source SRC_UNDERFLOW leaves the bytes read so far in the low bits and DCS = UNINIT. -/
def Obligations.DecInitPrimesTheCode : Prop :=
  encode .decInit = ⟨0x30000000, 0, 0, 0⟩ ∧
  ∀ s : State, s.fcause = none →
    (32 ≤ (unread s).length → ∀ code, code = BitVec.ofNat 32 (natOfBits ((unread s).take 32)) →
      exec .decInit s = .next (answered
        { s with
          dLow := 0, dRange := 0xFFFFFFFF, dCode := code, dcs := .ready, srcpos := s.srcpos + 32 }
        code 0 0)) ∧
    ((unread s).length < 32 → ∀ k, k = (unread s).length / 8 →
      exec .decInit s = .next (faultedWith
        { s with
          dLow := 0, dRange := 0xFFFFFFFF,
          dCode := BitVec.ofNat 32 (natOfBits ((unread s).take (8 * k))), dcs := .uninit,
          srcpos := s.srcpos + 8 * k } .srcUnderflow 0x30000000))

/-- DEC_GETFREQ (43_range_decoder.md R142): D_RANGE is divided by the total, the total is latched, DCS =
PENDING, and f is the difference modulo 2^32 over the divided range. -/
def Obligations.DecGetfreqDividesTheRange : Prop :=
  ∀ (total : Word) (s : State), s.fcause = none → s.dcs = .ready → 1 ≤ total.toNat →
    total.toNat < 65536 → total.toNat ≤ s.dRange.toNat →
    ∃ f : Word,
      f.toNat = (2 ^ 32 + s.dCode.toNat - s.dLow.toNat) % 2 ^ 32 /
        (s.dRange.toNat / total.toNat) ∧
      exec (.decGetfreq total) s = .next (answered
        { s with
          dRange := BitVec.ofNat 32 (s.dRange.toNat / total.toNat),
          dTot := BitVec.ofNat 16 total.toNat, dcs := .pending } f 0 0)

/-- DEC_DECODE (43_range_decoder.md R143, R144, 60_exceptions.md R192): the narrowing, then some n ≤ 3
iterations; with n bytes left it completes with DCS = READY, with fewer it raises SRC_UNDERFLOW in the
state after the completed iterations, DCS still PENDING. A narrowed range of 0, which no run reaches,
pops until the source is empty. -/
def Obligations.DecDecodeNarrowsAndRenormalises : Prop :=
  ∀ (start width total : Word) (s : State), s.fcause = none → s.dcs = .pending →
    total.toNat = s.dTot.toNat → 1 ≤ width.toNat → 1 ≤ total.toNat →
    start.toNat + width.toNat ≤ total.toNat →
    ∀ p : Word × Word, p = (s.dLow + start * s.dRange, s.dRange * width) →
    (p.2 ≠ 0 → ∃ n ≤ 3, RenormCount p n ∧
      (8 * n ≤ (unread s).length → exec (.decDecode start width total) s =
        .next (answered { decodedState s p n with dcs := .ready } (BitVec.ofNat 32 n) 0 0)) ∧
      ((unread s).length < 8 * n → exec (.decDecode start width total) s =
        .next (faultedWith (decodedState s p ((unread s).length / 8))
          .srcUnderflow 0x32000000))) ∧
    (p.2 = 0 → exec (.decDecode start width total) s =
      .next (faultedWith (decodedState s p ((unread s).length / 8)) .srcUnderflow 0x32000000))

/-- DEC_LOOKUP (43_range_decoder.md R145, R146): on a model's table the answer is the smallest index
above f, its start and its non-zero frequency, with f in the interval, and nothing is written; f at or
above the last entry raises LOOKUP_RANGE on any table; without a table it raises PROTOCOL. -/
def Obligations.DecLookupFindsTheSmallestSymbol : Prop :=
  ∀ f : Word, encode (.decLookup f) = ⟨0x33000000, f, 0, 0⟩ ∧
  ∀ s : State, s.fcause = none →
    (s.dst = .final → ModelOk s.dfreq s.dcum s.dTotal →
      f.toNat < (readEntry s.dcum 255).toNat →
      ∃ m start width : Nat, LeastAbove s.dcum f.toNat m ∧ start = startOf s.dcum m ∧
        width = (readEntry s.dfreq m).toNat ∧ 1 ≤ width ∧ start ≤ f.toNat ∧
        f.toNat < start + width ∧
        exec (.decLookup f) s = .next (answered s
          (BitVec.ofNat 32 m) (BitVec.ofNat 32 start) (BitVec.ofNat 32 width))) ∧
    (s.dst = .final → (readEntry s.dcum 255).toNat ≤ f.toNat →
      exec (.decLookup f) s = .next (faultedWith s .lookupRange 0x33000000)) ∧
    (s.dst ≠ .final → exec (.decLookup f) s = .next (faultedWith s .protocol 0x33000000))

/-- DEC_SYM (43_range_decoder.md R147, 60_exceptions.md R192) on a model's table with a quotient of at
least 1: the symbol of f, then the narrowing and n ≤ 3 iterations; LOOKUP_RANGE after part 1 when f has
no symbol, SRC_UNDERFLOW in the state of the completed iterations when bytes run out. -/
def Obligations.DecSymDecodesOneSymbol : Prop :=
  ∀ (s : State) (r f : Nat), s.fcause = none → s.dcs = .ready → s.dst = .final →
    ModelOk s.dfreq s.dcum s.dTotal → s.dTotal.toNat < 65536 →
    s.dTotal.toNat ≤ s.dRange.toNat → r = s.dRange.toNat / s.dTotal.toNat →
    f = (2 ^ 32 + s.dCode.toNat - s.dLow.toNat) % 2 ^ 32 / r →
    ∀ u : State, u = { s with
      dRange := BitVec.ofNat 32 r, dTot := BitVec.ofNat 16 s.dTotal.toNat, dcs := .pending } →
    ((readEntry s.dcum 255).toNat ≤ f →
      exec .decSym s = .next (faultedWith u .lookupRange 0x34000000)) ∧
    (f < (readEntry s.dcum 255).toNat →
      ∃ m start width n : Nat, LeastAbove s.dcum f m ∧ start = startOf s.dcum m ∧
        width = (readEntry s.dfreq m).toNat ∧ n ≤ 3 ∧
        ∀ p, p = narrowedPair s.dLow s.dRange start width s.dTotal.toNat → RenormCount p n ∧
        (8 * n ≤ (unread s).length → exec .decSym s =
          .next (answered { decodedState u p n with dcs := .ready }
            (BitVec.ofNat 32 m) (BitVec.ofNat 32 start) (BitVec.ofNat 32 width))) ∧
        ((unread s).length < 8 * n → exec .decSym s =
          .next (faultedWith (decodedState u p ((unread s).length / 8))
            .srcUnderflow 0x34000000)))

/-- DEC_SYM is DEC_GETFREQ with D_TOTAL, DEC_LOOKUP of its f and DEC_DECODE of its triple, in sequence,
with one response (43_range_decoder.md R147). -/
def Obligations.DecSymIsTheThreeCommandsInSequence : Prop :=
  ∀ s t : State, Inv s → s.fcause = none → exec .decSym s = .next t → t.fcause = none →
    ∃ (f m start width n : Word) (a b c : State),
      exec (.decGetfreq (s.dTotal.setWidth 32)) s = .next a ∧
      a.responses = s.responses ++ [⟨0, f, 0, 0⟩] ∧
      exec (.decLookup f) a = .next b ∧
      b.responses = a.responses ++ [⟨0, m, start, width⟩] ∧
      exec (.decDecode start width (s.dTotal.setWidth 32)) b = .next c ∧
      c.responses = b.responses ++ [⟨0, n, 0, 0⟩] ∧
      t = { c with responses := s.responses ++ [⟨0, m, start, width⟩] }

/-! ### Faults -/

/-- The protocol conditions (60_exceptions.md R184): each command, issued unfaulted where its condition is
false, raises PROTOCOL and changes nothing but FCAUSE and FINFO. -/
def Obligations.BrokenProtocolConditionsFault : Prop :=
  ∀ s : State, s.fcause = none → ∀ i : Instr,
    ((∃ n, i = .rdEfreq n) ∧ s.est = .invalid) ∨
    ((∃ n, i = .rdEcum n) ∧ s.est ≠ .final) ∨
    (((∃ n, i = .rdDfreq n) ∨ (∃ n, i = .rdDcum n) ∨ ∃ f, i = .decLookup f) ∧ s.dst ≠ .final) ∨
    (i = .mbClear ∧ s.eDirty = true) ∨
    (((∃ b, i = .mbCount b) ∨ i = .mbFinal) ∧ s.est ≠ .counting) ∨
    (i = .hdrWrite ∧ (s.est ≠ .final ∨ s.eDirty = true)) ∨
    ((∃ n, i = .encSym n) ∧ s.est ≠ .final) ∨
    ((∃ a, i = .decGetfreq a) ∧ s.dcs ≠ .ready) ∨
    ((∃ a b c, i = .decDecode a b c) ∧ s.dcs ≠ .pending) ∨
    (i = .decSym ∧ (s.dcs ≠ .ready ∨ s.dst ≠ .final)) →
    exec i s = .next (faultedWith s .protocol (encode i).cw)

/-- The contract conditions (60_exceptions.md R185, 42_range_encoder.md R125): a zero width, a total of 0
or at least 65536, a sum above the total (as naturals), a zero-frequency symbol, or a total that is not
D_TOT raises CONTRACT and changes nothing but FCAUSE and FINFO. -/
def Obligations.BrokenContractsFaultBeforeAnyChange : Prop :=
  ∀ (s : State) (start width total : Word), s.fcause = none →
    (width.toNat = 0 ∨ total.toNat = 0 ∨ 65536 ≤ total.toNat ∨
        total.toNat < start.toNat + width.toNat →
      exec (.encEncode start width total) s = .next (faultedWith s .contract 0x21000000) ∧
      (s.dcs = .pending →
        exec (.decDecode start width total) s = .next (faultedWith s .contract 0x32000000))) ∧
    (s.dcs = .pending → total.toNat ≠ s.dTot.toNat →
      exec (.decDecode start width total) s = .next (faultedWith s .contract 0x32000000)) ∧
    (s.dcs = .ready → total.toNat = 0 ∨ 65536 ≤ total.toNat →
      exec (.decGetfreq total) s = .next (faultedWith s .contract 0x31000000)) ∧
    ∀ sym : Byte, s.est = .final → ModelOk s.efreq s.ecum s.eTotal →
      readEntry s.efreq sym.toNat = 0 →
      exec (.encSym sym) s = .next (faultedWith s .contract (encode (.encSym sym)).cw)

/-- The defensive arms (42_range_encoder.md R126, 43_range_decoder.md R142, R147, 60_exceptions.md R192):
a zero quotient raises CONTRACT; the encoder has set E_DIRTY by then, the decoder has written nothing. -/
def Obligations.ZeroQuotientsRaiseContract : Prop :=
  ∀ (s : State) (start width total : Word), s.fcause = none →
    (checkTriple start.toNat width.toNat total.toNat = true → s.eRange.toNat < total.toNat →
      exec (.encEncode start width total) s =
        .next (faultedWith { s with eDirty := true } .contract 0x21000000)) ∧
    (s.dcs = .ready → 1 ≤ total.toNat → total.toNat < 65536 → s.dRange.toNat < total.toNat →
      exec (.decGetfreq total) s = .next (faultedWith s .contract 0x31000000)) ∧
    (s.dcs = .ready → s.dst = .final → s.dRange.toNat < s.dTotal.toNat →
      exec .decSym s = .next (faultedWith s .contract 0x34000000))

/-- In a state that meets the invariant the defensive arms are not reached (42_range_encoder.md R130 (5),
43_range_decoder.md R148 (d)): an accepted triple encodes without fault, DEC_GETFREQ of an accepted total
completes, and DEC_SYM never raises CONTRACT. -/
def Obligations.DefensiveArmsAreUnreachable : Prop :=
  ∀ (s : State) (start width total : Word), Inv s → s.fcause = none →
    (checkTriple start.toNat width.toNat total.toNat = true →
      ∃ t, exec (.encEncode start width total) s = .next t ∧ t.fcause = none) ∧
    (s.dcs = .ready → 1 ≤ total.toNat → total.toNat < 65536 →
      ∃ t, exec (.decGetfreq total) s = .next t ∧ t.fcause = none) ∧
    ∃ t, exec .decSym s = .next t ∧ t.fcause ≠ some .contract

/-- ILLEGAL_CMD (60_exceptions.md R183, 30_encoding.md R77): an illegal command word, and RD_REG of a
reserved number, change FCAUSE and FINFO and nothing else; while faulted they are refused (40_system.md
R90). -/
def Obligations.IllegalCommandsFault : Prop :=
  ∀ (s : State) (c : Command) (rest : List HostEvent), s.inputs = .command c :: rest →
    (c.wellFormed = false ∨
      c.cw.toNat / 256 = 0x020000 ∧ c.cw.toNat % 256 ∉
        [0x00, 0x01, 0x02, 0x03, 0x04, 0x05, 0x06, 0x10, 0x11, 0x20, 0x21, 0x22]) →
    (s.fcause = none →
      step s = .next (faultedWith { s with inputs := rest } .illegalCmd c.cw)) ∧
    ∀ x, s.fcause = some x → step s = .next (refusedIn { s with inputs := rest } x)

/-- While faulted, every command but the seven of 40_system.md R90 step 1 is refused with status 0x80 OR
FCAUSE and changes nothing. -/
def Obligations.FaultedBlockRefusesCommands : Prop :=
  ∀ (i : Instr) (s : State) (x : Cause), s.fcause = some x →
    i ≠ .nop → i ≠ .sreset → (∀ n, i ≠ .rdReg n) → (∀ n, i ≠ .rdEfreq n) →
    (∀ n, i ≠ .rdEcum n) → (∀ n, i ≠ .rdDfreq n) → (∀ n, i ≠ .rdDcum n) →
    exec i s = .next (refusedIn s x)

/-- The first fault stays until reset or SRESET (10_state.md R34, 60_exceptions.md R193): while faulted no
other command changes anything but the response list, and no other step changes a register, a bank,
FCAUSE or FINFO. -/
def Obligations.FirstFaultStaysUntilReset : Prop :=
  ∀ (s t : State) (x : Cause), s.fcause = some x →
    (∀ i : Instr, i ≠ .sreset → exec i s = .next t → t = { s with responses := t.responses }) ∧
    ((∀ rest, s.inputs ≠ .rst :: rest) → (∀ c k rest, s.inputs ≠ .rstDuring c k :: rest) →
      (∀ c rest, s.inputs = .command c :: rest → c.cw ≠ 0x01000000) → step s = .next t →
      t = { s with
        out := t.out, src := t.src, srcpos := t.srcpos, inputs := t.inputs,
        responses := t.responses })

/-! ### What each command may write -/

/-- Only the encoder's commands and SRESET write the encoder's registers (10_state.md R21 to R23). -/
def Obligations.EncoderRegistersHaveTheirWriters : Prop :=
  ∀ (i : Instr) (s t : State), exec i s = .next t → i ≠ .sreset → i ≠ .encInit →
    (∀ a b c, i ≠ .encEncode a b c) → (∀ n, i ≠ .encSym n) → i ≠ .encFlush →
    t.eLow = s.eLow ∧ t.eRange = s.eRange ∧ t.eDirty = s.eDirty

/-- Only the decoder's commands and SRESET write the decoder's registers, each register only its own
writers (10_state.md R24 to R27, R33). -/
def Obligations.DecoderRegistersHaveTheirWriters : Prop :=
  ∀ (i : Instr) (s t : State), exec i s = .next t → i ≠ .sreset →
    (i ≠ .decInit → (∀ a b c, i ≠ .decDecode a b c) → i ≠ .decSym →
      t.dLow = s.dLow ∧ t.dCode = s.dCode ∧
      ((∀ a, i ≠ .decGetfreq a) → t.dRange = s.dRange)) ∧
    ((∀ a, i ≠ .decGetfreq a) → i ≠ .decSym → t.dTot = s.dTot) ∧
    (i ≠ .hdrRead → i ≠ .decInit → (∀ a, i ≠ .decGetfreq a) → (∀ a b c, i ≠ .decDecode a b c) →
      i ≠ .decSym → t.dcs = s.dcs)

/-- The banks and the model registers have their writers only (10_state.md R28 to R32, R38 to R41); in
particular no coding command writes a table (44_message_procedures.md R165). -/
def Obligations.TablesHaveTheirWriters : Prop :=
  ∀ (i : Instr) (s t : State), exec i s = .next t → i ≠ .sreset →
    (i ≠ .mbClear → (∀ b, i ≠ .mbCount b) → t.efreq = s.efreq ∧ t.runtot = s.runtot) ∧
    (i ≠ .mbFinal → t.ecum = s.ecum ∧ t.eTotal = s.eTotal ∧ (i ≠ .mbClear → t.est = s.est)) ∧
    (i ≠ .hdrRead →
      t.dfreq = s.dfreq ∧ t.dcum = s.dcum ∧ t.dTotal = s.dTotal ∧ t.dst = s.dst)

/-- The streams (20_memory.md R50, R57, R58): OUT only grows, and only by HDR_WRITE and the encoder;
SRCPOS only advances, and only by HDR_READ and the decoder; no command changes IN. -/
def Obligations.StreamsOnlyAdvance : Prop :=
  ∀ (i : Instr) (s t : State), exec i s = .next t →
    (∃ pushed, t.out = s.out ++ pushed) ∧ s.srcpos ≤ t.srcpos ∧ t.src = s.src ∧
    (i ≠ .hdrWrite → (∀ a b c, i ≠ .encEncode a b c) → (∀ n, i ≠ .encSym n) → i ≠ .encFlush →
      t.out = s.out) ∧
    (i ≠ .hdrRead → i ≠ .decInit → (∀ a b c, i ≠ .decDecode a b c) → i ≠ .decSym →
      t.srcpos = s.srcpos)

/-- Push(v, n) appends the n low-order bits of v, most significant first, and writes nothing else
(20_memory.md R52). -/
def Obligations.PushAppendsMostSignificantFirst : Prop :=
  ∀ (n v : Nat) (s : State), ∃ bits : List Bool, bits.length = n ∧
    (∀ k < n, bits[k]? = some (v.testBit (n - 1 - k))) ∧ push n v s = { s with out := s.out ++ bits }

/-- Pop(n) (20_memory.md R53): the next n bits, the first the most significant, and SRCPOS advanced by n;
or, with fewer left, SRC_UNDERFLOW with nothing taken. -/
def Obligations.PopTakesTheNextBitsOrNothing : Prop :=
  ∀ (n : Nat) (s : State),
    (n ≤ s.src.length - s.srcpos → ∃ v : BitVec n,
      (∀ k < n, s.src[s.srcpos + k]? = some (v.getLsbD (n - 1 - k))) ∧
      pop n s = .ok v { s with srcpos := s.srcpos + n }) ∧
    (s.src.length - s.srcpos < n → pop n s = .raised .srcUnderflow s)

/-! ### Whole-machine rules -/

/-- The reset state meets the invariants of 10_state.md R47. -/
def Obligations.ResetStateMeetsTheInvariant : Prop := Inv State.reset

/-- Every step, from every state that meets the invariants of 10_state.md R47 (the interval, the pending
pair, the histogram, the two models and the read position), gives a state that meets them. -/
def Obligations.EveryStepKeepsTheInvariant : Prop :=
  ∀ s t : State, Inv s → step s = .next t → Inv t

/-- UNSPECIFIED CONTENTS ARE NEVER READ (10_state.md R49, 93_implementation_defined.md U1): two states
that differ only in contents no command may read step to two such states, with the same responses,
streams, registers and readable banks. -/
def Obligations.UnspecifiedContentsAreNeverRead : Prop :=
  ∀ s t s' t' : State, AgreeReadable s t → step s = .next s' → step t = .next t' →
    AgreeReadable s' t'

/-- LOCKSTEP (43_range_decoder.md R148 (a) to (c)): triples that pass their checks are encoded from the
constructed state and flushed; a primed decoder given the same triples has, after k of them, the
encoder's interval after k; each f lies in its triple's interval; every response is clean; and exactly
the pushed bytes are consumed. -/
def Obligations.DecoderRunsInLockstepWithTheEncoder : Prop :=
  ∀ (ts : List (Word × Word × Word)) (s u : State), ts ≠ [] →
    (∀ x ∈ ts, checkTriple x.1.toNat x.2.1.toNat x.2.2.toNat = true) →
    s.fcause = none → s.eLow = 0 → s.eRange = 0xFFFFFFFF → s.eDirty = false → u.fcause = none →
    ∀ enc dec : List Instr,
    enc = ts.map (fun x => .encEncode x.1 x.2.1 x.2.2) ++ [.encFlush] →
    dec = [.decInit] ++
      ts.flatMap (fun x => [.decGetfreq x.2.2, .decDecode x.1 x.2.1 x.2.2]) →
    ∃ (t : State) (m : List Bool) (rs : List Response),
      runSteps enc.length (presenting enc s) = .next t ∧ t.out = s.out ++ m ∧
      t.responses = s.responses ++ rs ∧ Clean rs ∧
      ∀ rest, unread u = m ++ rest → ∃ (v : State) (qs : List Response),
        runSteps dec.length (presenting dec u) = .next v ∧ v.responses = u.responses ++ qs ∧
        Clean qs ∧ unread v = rest ∧
        (∀ k x, ts[k]? = some x → ∃ q, qs[2 * k + 1]? = some q ∧ x.1.toNat ≤ q.d0.toNat ∧
          q.d0.toNat < x.1.toNat + x.2.1.toNat) ∧
        ∀ k ≤ ts.length, ∃ tk vk, runSteps k (presenting enc s) = .next tk ∧
          runSteps (2 * k + 1) (presenting dec u) = .next vk ∧ vk.dLow = tk.eLow ∧
          vk.dRange = tk.eRange

/-- ENCODE_MESSAGE (44_message_procedures.md R160, R163, R164): the message of S is a function of S alone,
whatever the block's history; no command of the sequence faults; the message has 2560 bits for the empty
input and 2560 + 8·B + 32 otherwise, B being at most 3 bytes per symbol. -/
def Obligations.EncodeMessageIsAFunctionOfItsInput : Prop :=
  ∀ S : List Byte, ∃ m : List Bool,
    (S = [] → m = List.replicate 2560 false) ∧
    (S ≠ [] → ∃ B ≤ 3 * S.length, m.length = 2560 + 8 * B + 32) ∧
    ∀ s : State, s.fcause = none → s.eDirty = false → ∃ (t : State) (rs : List Response),
      runSteps (encodeMessage S).length (presenting (encodeMessage S) s) = .next t ∧
      t.out = s.out ++ m ∧ t.responses = s.responses ++ rs ∧ Clean rs

/-- THE ROUND-TRIP LAW (44_message_procedures.md R162): what ENCODE_MESSAGE S appends to OUT, read by
DECODE_MESSAGE |S|, raises no fault, answers exactly the bytes of S, and is consumed exactly. -/
def Obligations.DecodingAnEncodedMessageGivesItBack : Prop :=
  ∀ (S : List Byte) (s u : State), s.fcause = none → s.eDirty = false → u.fcause = none →
    ∃ (t : State) (m : List Bool) (rs : List Response),
      runSteps (encodeMessage S).length (presenting (encodeMessage S) s) = .next t ∧
      t.out = s.out ++ m ∧ t.responses = s.responses ++ rs ∧ Clean rs ∧
      ∀ rest, unread u = m ++ rest → ∃ (v : State) (qs : List Response),
        runSteps (decodeMessage S.length).length (presenting (decodeMessage S.length) u) =
          .next v ∧
        v.responses = u.responses ++ qs ∧ Clean qs ∧ unread v = rest ∧
        (qs.drop 2).map (·.d0) = S.map (·.setWidth 32)
end

