-- ==== Sys2Proof/Laws/State.lean ====
section
/-! SUPPORT. One lemma per field per update of State, true by rfl, so that no proof unfolds a record
update (10_state.md R20: which update writes which register). -/

namespace Sys2Proof.Machine.State

variable (s : State)

/-! ### setEnc -/

@[simp] theorem setEnc_eLow (low range : Word) : (s.setEnc low range).eLow = low := rfl
@[simp] theorem setEnc_eRange (low range : Word) : (s.setEnc low range).eRange = range := rfl
@[simp] theorem setEnc_eDirty (low range : Word) : (s.setEnc low range).eDirty = s.eDirty := rfl
@[simp] theorem setEnc_dLow (low range : Word) : (s.setEnc low range).dLow = s.dLow := rfl
@[simp] theorem setEnc_dRange (low range : Word) : (s.setEnc low range).dRange = s.dRange := rfl
@[simp] theorem setEnc_dCode (low range : Word) : (s.setEnc low range).dCode = s.dCode := rfl
@[simp] theorem setEnc_dTot (low range : Word) : (s.setEnc low range).dTot = s.dTot := rfl
@[simp] theorem setEnc_runtot (low range : Word) : (s.setEnc low range).runtot = s.runtot := rfl
@[simp] theorem setEnc_eTotal (low range : Word) : (s.setEnc low range).eTotal = s.eTotal := rfl
@[simp] theorem setEnc_dTotal (low range : Word) : (s.setEnc low range).dTotal = s.dTotal := rfl
@[simp] theorem setEnc_est (low range : Word) : (s.setEnc low range).est = s.est := rfl
@[simp] theorem setEnc_dst (low range : Word) : (s.setEnc low range).dst = s.dst := rfl
@[simp] theorem setEnc_dcs (low range : Word) : (s.setEnc low range).dcs = s.dcs := rfl
@[simp] theorem setEnc_fcause (low range : Word) : (s.setEnc low range).fcause = s.fcause := rfl
@[simp] theorem setEnc_finfo (low range : Word) : (s.setEnc low range).finfo = s.finfo := rfl
@[simp] theorem setEnc_efreq (low range : Word) : (s.setEnc low range).efreq = s.efreq := rfl
@[simp] theorem setEnc_ecum (low range : Word) : (s.setEnc low range).ecum = s.ecum := rfl
@[simp] theorem setEnc_dfreq (low range : Word) : (s.setEnc low range).dfreq = s.dfreq := rfl
@[simp] theorem setEnc_dcum (low range : Word) : (s.setEnc low range).dcum = s.dcum := rfl
@[simp] theorem setEnc_out (low range : Word) : (s.setEnc low range).out = s.out := rfl
@[simp] theorem setEnc_src (low range : Word) : (s.setEnc low range).src = s.src := rfl
@[simp] theorem setEnc_srcpos (low range : Word) : (s.setEnc low range).srcpos = s.srcpos := rfl
@[simp] theorem setEnc_inputs (low range : Word) : (s.setEnc low range).inputs = s.inputs := rfl
@[simp] theorem setEnc_responses (low range : Word) : (s.setEnc low range).responses = s.responses := rfl
@[simp] theorem setEnc_draws (low range : Word) : (s.setEnc low range).draws = s.draws := rfl

/-! ### setDirty -/

@[simp] theorem setDirty_eLow (d : Bool) : (s.setDirty d).eLow = s.eLow := rfl
@[simp] theorem setDirty_eRange (d : Bool) : (s.setDirty d).eRange = s.eRange := rfl
@[simp] theorem setDirty_eDirty (d : Bool) : (s.setDirty d).eDirty = d := rfl
@[simp] theorem setDirty_dLow (d : Bool) : (s.setDirty d).dLow = s.dLow := rfl
@[simp] theorem setDirty_dRange (d : Bool) : (s.setDirty d).dRange = s.dRange := rfl
@[simp] theorem setDirty_dCode (d : Bool) : (s.setDirty d).dCode = s.dCode := rfl
@[simp] theorem setDirty_dTot (d : Bool) : (s.setDirty d).dTot = s.dTot := rfl
@[simp] theorem setDirty_runtot (d : Bool) : (s.setDirty d).runtot = s.runtot := rfl
@[simp] theorem setDirty_eTotal (d : Bool) : (s.setDirty d).eTotal = s.eTotal := rfl
@[simp] theorem setDirty_dTotal (d : Bool) : (s.setDirty d).dTotal = s.dTotal := rfl
@[simp] theorem setDirty_est (d : Bool) : (s.setDirty d).est = s.est := rfl
@[simp] theorem setDirty_dst (d : Bool) : (s.setDirty d).dst = s.dst := rfl
@[simp] theorem setDirty_dcs (d : Bool) : (s.setDirty d).dcs = s.dcs := rfl
@[simp] theorem setDirty_fcause (d : Bool) : (s.setDirty d).fcause = s.fcause := rfl
@[simp] theorem setDirty_finfo (d : Bool) : (s.setDirty d).finfo = s.finfo := rfl
@[simp] theorem setDirty_efreq (d : Bool) : (s.setDirty d).efreq = s.efreq := rfl
@[simp] theorem setDirty_ecum (d : Bool) : (s.setDirty d).ecum = s.ecum := rfl
@[simp] theorem setDirty_dfreq (d : Bool) : (s.setDirty d).dfreq = s.dfreq := rfl
@[simp] theorem setDirty_dcum (d : Bool) : (s.setDirty d).dcum = s.dcum := rfl
@[simp] theorem setDirty_out (d : Bool) : (s.setDirty d).out = s.out := rfl
@[simp] theorem setDirty_src (d : Bool) : (s.setDirty d).src = s.src := rfl
@[simp] theorem setDirty_srcpos (d : Bool) : (s.setDirty d).srcpos = s.srcpos := rfl
@[simp] theorem setDirty_inputs (d : Bool) : (s.setDirty d).inputs = s.inputs := rfl
@[simp] theorem setDirty_responses (d : Bool) : (s.setDirty d).responses = s.responses := rfl
@[simp] theorem setDirty_draws (d : Bool) : (s.setDirty d).draws = s.draws := rfl

/-! ### setDec -/

@[simp] theorem setDec_eLow (low range code : Word) : (s.setDec low range code).eLow = s.eLow := rfl
@[simp] theorem setDec_eRange (low range code : Word) : (s.setDec low range code).eRange = s.eRange := rfl
@[simp] theorem setDec_eDirty (low range code : Word) : (s.setDec low range code).eDirty = s.eDirty := rfl
@[simp] theorem setDec_dLow (low range code : Word) : (s.setDec low range code).dLow = low := rfl
@[simp] theorem setDec_dRange (low range code : Word) : (s.setDec low range code).dRange = range := rfl
@[simp] theorem setDec_dCode (low range code : Word) : (s.setDec low range code).dCode = code := rfl
@[simp] theorem setDec_dTot (low range code : Word) : (s.setDec low range code).dTot = s.dTot := rfl
@[simp] theorem setDec_runtot (low range code : Word) : (s.setDec low range code).runtot = s.runtot := rfl
@[simp] theorem setDec_eTotal (low range code : Word) : (s.setDec low range code).eTotal = s.eTotal := rfl
@[simp] theorem setDec_dTotal (low range code : Word) : (s.setDec low range code).dTotal = s.dTotal := rfl
@[simp] theorem setDec_est (low range code : Word) : (s.setDec low range code).est = s.est := rfl
@[simp] theorem setDec_dst (low range code : Word) : (s.setDec low range code).dst = s.dst := rfl
@[simp] theorem setDec_dcs (low range code : Word) : (s.setDec low range code).dcs = s.dcs := rfl
@[simp] theorem setDec_fcause (low range code : Word) : (s.setDec low range code).fcause = s.fcause := rfl
@[simp] theorem setDec_finfo (low range code : Word) : (s.setDec low range code).finfo = s.finfo := rfl
@[simp] theorem setDec_efreq (low range code : Word) : (s.setDec low range code).efreq = s.efreq := rfl
@[simp] theorem setDec_ecum (low range code : Word) : (s.setDec low range code).ecum = s.ecum := rfl
@[simp] theorem setDec_dfreq (low range code : Word) : (s.setDec low range code).dfreq = s.dfreq := rfl
@[simp] theorem setDec_dcum (low range code : Word) : (s.setDec low range code).dcum = s.dcum := rfl
@[simp] theorem setDec_out (low range code : Word) : (s.setDec low range code).out = s.out := rfl
@[simp] theorem setDec_src (low range code : Word) : (s.setDec low range code).src = s.src := rfl
@[simp] theorem setDec_srcpos (low range code : Word) : (s.setDec low range code).srcpos = s.srcpos := rfl
@[simp] theorem setDec_inputs (low range code : Word) : (s.setDec low range code).inputs = s.inputs := rfl
@[simp] theorem setDec_responses (low range code : Word) : (s.setDec low range code).responses = s.responses := rfl
@[simp] theorem setDec_draws (low range code : Word) : (s.setDec low range code).draws = s.draws := rfl

/-! ### setTot -/

@[simp] theorem setTot_eLow (x : BitVec 16) : (s.setTot x).eLow = s.eLow := rfl
@[simp] theorem setTot_eRange (x : BitVec 16) : (s.setTot x).eRange = s.eRange := rfl
@[simp] theorem setTot_eDirty (x : BitVec 16) : (s.setTot x).eDirty = s.eDirty := rfl
@[simp] theorem setTot_dLow (x : BitVec 16) : (s.setTot x).dLow = s.dLow := rfl
@[simp] theorem setTot_dRange (x : BitVec 16) : (s.setTot x).dRange = s.dRange := rfl
@[simp] theorem setTot_dCode (x : BitVec 16) : (s.setTot x).dCode = s.dCode := rfl
@[simp] theorem setTot_dTot (x : BitVec 16) : (s.setTot x).dTot = x := rfl
@[simp] theorem setTot_runtot (x : BitVec 16) : (s.setTot x).runtot = s.runtot := rfl
@[simp] theorem setTot_eTotal (x : BitVec 16) : (s.setTot x).eTotal = s.eTotal := rfl
@[simp] theorem setTot_dTotal (x : BitVec 16) : (s.setTot x).dTotal = s.dTotal := rfl
@[simp] theorem setTot_est (x : BitVec 16) : (s.setTot x).est = s.est := rfl
@[simp] theorem setTot_dst (x : BitVec 16) : (s.setTot x).dst = s.dst := rfl
@[simp] theorem setTot_dcs (x : BitVec 16) : (s.setTot x).dcs = s.dcs := rfl
@[simp] theorem setTot_fcause (x : BitVec 16) : (s.setTot x).fcause = s.fcause := rfl
@[simp] theorem setTot_finfo (x : BitVec 16) : (s.setTot x).finfo = s.finfo := rfl
@[simp] theorem setTot_efreq (x : BitVec 16) : (s.setTot x).efreq = s.efreq := rfl
@[simp] theorem setTot_ecum (x : BitVec 16) : (s.setTot x).ecum = s.ecum := rfl
@[simp] theorem setTot_dfreq (x : BitVec 16) : (s.setTot x).dfreq = s.dfreq := rfl
@[simp] theorem setTot_dcum (x : BitVec 16) : (s.setTot x).dcum = s.dcum := rfl
@[simp] theorem setTot_out (x : BitVec 16) : (s.setTot x).out = s.out := rfl
@[simp] theorem setTot_src (x : BitVec 16) : (s.setTot x).src = s.src := rfl
@[simp] theorem setTot_srcpos (x : BitVec 16) : (s.setTot x).srcpos = s.srcpos := rfl
@[simp] theorem setTot_inputs (x : BitVec 16) : (s.setTot x).inputs = s.inputs := rfl
@[simp] theorem setTot_responses (x : BitVec 16) : (s.setTot x).responses = s.responses := rfl
@[simp] theorem setTot_draws (x : BitVec 16) : (s.setTot x).draws = s.draws := rfl

/-! ### setDcs -/

@[simp] theorem setDcs_eLow (x : CoderState) : (s.setDcs x).eLow = s.eLow := rfl
@[simp] theorem setDcs_eRange (x : CoderState) : (s.setDcs x).eRange = s.eRange := rfl
@[simp] theorem setDcs_eDirty (x : CoderState) : (s.setDcs x).eDirty = s.eDirty := rfl
@[simp] theorem setDcs_dLow (x : CoderState) : (s.setDcs x).dLow = s.dLow := rfl
@[simp] theorem setDcs_dRange (x : CoderState) : (s.setDcs x).dRange = s.dRange := rfl
@[simp] theorem setDcs_dCode (x : CoderState) : (s.setDcs x).dCode = s.dCode := rfl
@[simp] theorem setDcs_dTot (x : CoderState) : (s.setDcs x).dTot = s.dTot := rfl
@[simp] theorem setDcs_runtot (x : CoderState) : (s.setDcs x).runtot = s.runtot := rfl
@[simp] theorem setDcs_eTotal (x : CoderState) : (s.setDcs x).eTotal = s.eTotal := rfl
@[simp] theorem setDcs_dTotal (x : CoderState) : (s.setDcs x).dTotal = s.dTotal := rfl
@[simp] theorem setDcs_est (x : CoderState) : (s.setDcs x).est = s.est := rfl
@[simp] theorem setDcs_dst (x : CoderState) : (s.setDcs x).dst = s.dst := rfl
@[simp] theorem setDcs_dcs (x : CoderState) : (s.setDcs x).dcs = x := rfl
@[simp] theorem setDcs_fcause (x : CoderState) : (s.setDcs x).fcause = s.fcause := rfl
@[simp] theorem setDcs_finfo (x : CoderState) : (s.setDcs x).finfo = s.finfo := rfl
@[simp] theorem setDcs_efreq (x : CoderState) : (s.setDcs x).efreq = s.efreq := rfl
@[simp] theorem setDcs_ecum (x : CoderState) : (s.setDcs x).ecum = s.ecum := rfl
@[simp] theorem setDcs_dfreq (x : CoderState) : (s.setDcs x).dfreq = s.dfreq := rfl
@[simp] theorem setDcs_dcum (x : CoderState) : (s.setDcs x).dcum = s.dcum := rfl
@[simp] theorem setDcs_out (x : CoderState) : (s.setDcs x).out = s.out := rfl
@[simp] theorem setDcs_src (x : CoderState) : (s.setDcs x).src = s.src := rfl
@[simp] theorem setDcs_srcpos (x : CoderState) : (s.setDcs x).srcpos = s.srcpos := rfl
@[simp] theorem setDcs_inputs (x : CoderState) : (s.setDcs x).inputs = s.inputs := rfl
@[simp] theorem setDcs_responses (x : CoderState) : (s.setDcs x).responses = s.responses := rfl
@[simp] theorem setDcs_draws (x : CoderState) : (s.setDcs x).draws = s.draws := rfl

/-! ### setDst -/

@[simp] theorem setDst_eLow (x : DState) : (s.setDst x).eLow = s.eLow := rfl
@[simp] theorem setDst_eRange (x : DState) : (s.setDst x).eRange = s.eRange := rfl
@[simp] theorem setDst_eDirty (x : DState) : (s.setDst x).eDirty = s.eDirty := rfl
@[simp] theorem setDst_dLow (x : DState) : (s.setDst x).dLow = s.dLow := rfl
@[simp] theorem setDst_dRange (x : DState) : (s.setDst x).dRange = s.dRange := rfl
@[simp] theorem setDst_dCode (x : DState) : (s.setDst x).dCode = s.dCode := rfl
@[simp] theorem setDst_dTot (x : DState) : (s.setDst x).dTot = s.dTot := rfl
@[simp] theorem setDst_runtot (x : DState) : (s.setDst x).runtot = s.runtot := rfl
@[simp] theorem setDst_eTotal (x : DState) : (s.setDst x).eTotal = s.eTotal := rfl
@[simp] theorem setDst_dTotal (x : DState) : (s.setDst x).dTotal = s.dTotal := rfl
@[simp] theorem setDst_est (x : DState) : (s.setDst x).est = s.est := rfl
@[simp] theorem setDst_dst (x : DState) : (s.setDst x).dst = x := rfl
@[simp] theorem setDst_dcs (x : DState) : (s.setDst x).dcs = s.dcs := rfl
@[simp] theorem setDst_fcause (x : DState) : (s.setDst x).fcause = s.fcause := rfl
@[simp] theorem setDst_finfo (x : DState) : (s.setDst x).finfo = s.finfo := rfl
@[simp] theorem setDst_efreq (x : DState) : (s.setDst x).efreq = s.efreq := rfl
@[simp] theorem setDst_ecum (x : DState) : (s.setDst x).ecum = s.ecum := rfl
@[simp] theorem setDst_dfreq (x : DState) : (s.setDst x).dfreq = s.dfreq := rfl
@[simp] theorem setDst_dcum (x : DState) : (s.setDst x).dcum = s.dcum := rfl
@[simp] theorem setDst_out (x : DState) : (s.setDst x).out = s.out := rfl
@[simp] theorem setDst_src (x : DState) : (s.setDst x).src = s.src := rfl
@[simp] theorem setDst_srcpos (x : DState) : (s.setDst x).srcpos = s.srcpos := rfl
@[simp] theorem setDst_inputs (x : DState) : (s.setDst x).inputs = s.inputs := rfl
@[simp] theorem setDst_responses (x : DState) : (s.setDst x).responses = s.responses := rfl
@[simp] theorem setDst_draws (x : DState) : (s.setDst x).draws = s.draws := rfl

/-! ### setEst -/

@[simp] theorem setEst_eLow (x : EState) : (s.setEst x).eLow = s.eLow := rfl
@[simp] theorem setEst_eRange (x : EState) : (s.setEst x).eRange = s.eRange := rfl
@[simp] theorem setEst_eDirty (x : EState) : (s.setEst x).eDirty = s.eDirty := rfl
@[simp] theorem setEst_dLow (x : EState) : (s.setEst x).dLow = s.dLow := rfl
@[simp] theorem setEst_dRange (x : EState) : (s.setEst x).dRange = s.dRange := rfl
@[simp] theorem setEst_dCode (x : EState) : (s.setEst x).dCode = s.dCode := rfl
@[simp] theorem setEst_dTot (x : EState) : (s.setEst x).dTot = s.dTot := rfl
@[simp] theorem setEst_runtot (x : EState) : (s.setEst x).runtot = s.runtot := rfl
@[simp] theorem setEst_eTotal (x : EState) : (s.setEst x).eTotal = s.eTotal := rfl
@[simp] theorem setEst_dTotal (x : EState) : (s.setEst x).dTotal = s.dTotal := rfl
@[simp] theorem setEst_est (x : EState) : (s.setEst x).est = x := rfl
@[simp] theorem setEst_dst (x : EState) : (s.setEst x).dst = s.dst := rfl
@[simp] theorem setEst_dcs (x : EState) : (s.setEst x).dcs = s.dcs := rfl
@[simp] theorem setEst_fcause (x : EState) : (s.setEst x).fcause = s.fcause := rfl
@[simp] theorem setEst_finfo (x : EState) : (s.setEst x).finfo = s.finfo := rfl
@[simp] theorem setEst_efreq (x : EState) : (s.setEst x).efreq = s.efreq := rfl
@[simp] theorem setEst_ecum (x : EState) : (s.setEst x).ecum = s.ecum := rfl
@[simp] theorem setEst_dfreq (x : EState) : (s.setEst x).dfreq = s.dfreq := rfl
@[simp] theorem setEst_dcum (x : EState) : (s.setEst x).dcum = s.dcum := rfl
@[simp] theorem setEst_out (x : EState) : (s.setEst x).out = s.out := rfl
@[simp] theorem setEst_src (x : EState) : (s.setEst x).src = s.src := rfl
@[simp] theorem setEst_srcpos (x : EState) : (s.setEst x).srcpos = s.srcpos := rfl
@[simp] theorem setEst_inputs (x : EState) : (s.setEst x).inputs = s.inputs := rfl
@[simp] theorem setEst_responses (x : EState) : (s.setEst x).responses = s.responses := rfl
@[simp] theorem setEst_draws (x : EState) : (s.setEst x).draws = s.draws := rfl

/-! ### setHistogram -/

@[simp] theorem setHistogram_eLow (t : Table 10) (x : BitVec 15) : (s.setHistogram t x).eLow = s.eLow := rfl
@[simp] theorem setHistogram_eRange (t : Table 10) (x : BitVec 15) : (s.setHistogram t x).eRange = s.eRange := rfl
@[simp] theorem setHistogram_eDirty (t : Table 10) (x : BitVec 15) : (s.setHistogram t x).eDirty = s.eDirty := rfl
@[simp] theorem setHistogram_dLow (t : Table 10) (x : BitVec 15) : (s.setHistogram t x).dLow = s.dLow := rfl
@[simp] theorem setHistogram_dRange (t : Table 10) (x : BitVec 15) : (s.setHistogram t x).dRange = s.dRange := rfl
@[simp] theorem setHistogram_dCode (t : Table 10) (x : BitVec 15) : (s.setHistogram t x).dCode = s.dCode := rfl
@[simp] theorem setHistogram_dTot (t : Table 10) (x : BitVec 15) : (s.setHistogram t x).dTot = s.dTot := rfl
@[simp] theorem setHistogram_runtot (t : Table 10) (x : BitVec 15) : (s.setHistogram t x).runtot = x := rfl
@[simp] theorem setHistogram_eTotal (t : Table 10) (x : BitVec 15) : (s.setHistogram t x).eTotal = s.eTotal := rfl
@[simp] theorem setHistogram_dTotal (t : Table 10) (x : BitVec 15) : (s.setHistogram t x).dTotal = s.dTotal := rfl
@[simp] theorem setHistogram_est (t : Table 10) (x : BitVec 15) : (s.setHistogram t x).est = s.est := rfl
@[simp] theorem setHistogram_dst (t : Table 10) (x : BitVec 15) : (s.setHistogram t x).dst = s.dst := rfl
@[simp] theorem setHistogram_dcs (t : Table 10) (x : BitVec 15) : (s.setHistogram t x).dcs = s.dcs := rfl
@[simp] theorem setHistogram_fcause (t : Table 10) (x : BitVec 15) : (s.setHistogram t x).fcause = s.fcause := rfl
@[simp] theorem setHistogram_finfo (t : Table 10) (x : BitVec 15) : (s.setHistogram t x).finfo = s.finfo := rfl
@[simp] theorem setHistogram_efreq (t : Table 10) (x : BitVec 15) : (s.setHistogram t x).efreq = t := rfl
@[simp] theorem setHistogram_ecum (t : Table 10) (x : BitVec 15) : (s.setHistogram t x).ecum = s.ecum := rfl
@[simp] theorem setHistogram_dfreq (t : Table 10) (x : BitVec 15) : (s.setHistogram t x).dfreq = s.dfreq := rfl
@[simp] theorem setHistogram_dcum (t : Table 10) (x : BitVec 15) : (s.setHistogram t x).dcum = s.dcum := rfl
@[simp] theorem setHistogram_out (t : Table 10) (x : BitVec 15) : (s.setHistogram t x).out = s.out := rfl
@[simp] theorem setHistogram_src (t : Table 10) (x : BitVec 15) : (s.setHistogram t x).src = s.src := rfl
@[simp] theorem setHistogram_srcpos (t : Table 10) (x : BitVec 15) : (s.setHistogram t x).srcpos = s.srcpos := rfl
@[simp] theorem setHistogram_inputs (t : Table 10) (x : BitVec 15) : (s.setHistogram t x).inputs = s.inputs := rfl
@[simp] theorem setHistogram_responses (t : Table 10) (x : BitVec 15) : (s.setHistogram t x).responses = s.responses := rfl
@[simp] theorem setHistogram_draws (t : Table 10) (x : BitVec 15) : (s.setHistogram t x).draws = s.draws := rfl

/-! ### setECum -/

@[simp] theorem setECum_eLow (m : Table 18 × BitVec 18) : (s.setECum m).eLow = s.eLow := rfl
@[simp] theorem setECum_eRange (m : Table 18 × BitVec 18) : (s.setECum m).eRange = s.eRange := rfl
@[simp] theorem setECum_eDirty (m : Table 18 × BitVec 18) : (s.setECum m).eDirty = s.eDirty := rfl
@[simp] theorem setECum_dLow (m : Table 18 × BitVec 18) : (s.setECum m).dLow = s.dLow := rfl
@[simp] theorem setECum_dRange (m : Table 18 × BitVec 18) : (s.setECum m).dRange = s.dRange := rfl
@[simp] theorem setECum_dCode (m : Table 18 × BitVec 18) : (s.setECum m).dCode = s.dCode := rfl
@[simp] theorem setECum_dTot (m : Table 18 × BitVec 18) : (s.setECum m).dTot = s.dTot := rfl
@[simp] theorem setECum_runtot (m : Table 18 × BitVec 18) : (s.setECum m).runtot = s.runtot := rfl
@[simp] theorem setECum_eTotal (m : Table 18 × BitVec 18) : (s.setECum m).eTotal = m.2 := rfl
@[simp] theorem setECum_dTotal (m : Table 18 × BitVec 18) : (s.setECum m).dTotal = s.dTotal := rfl
@[simp] theorem setECum_est (m : Table 18 × BitVec 18) : (s.setECum m).est = s.est := rfl
@[simp] theorem setECum_dst (m : Table 18 × BitVec 18) : (s.setECum m).dst = s.dst := rfl
@[simp] theorem setECum_dcs (m : Table 18 × BitVec 18) : (s.setECum m).dcs = s.dcs := rfl
@[simp] theorem setECum_fcause (m : Table 18 × BitVec 18) : (s.setECum m).fcause = s.fcause := rfl
@[simp] theorem setECum_finfo (m : Table 18 × BitVec 18) : (s.setECum m).finfo = s.finfo := rfl
@[simp] theorem setECum_efreq (m : Table 18 × BitVec 18) : (s.setECum m).efreq = s.efreq := rfl
@[simp] theorem setECum_ecum (m : Table 18 × BitVec 18) : (s.setECum m).ecum = m.1 := rfl
@[simp] theorem setECum_dfreq (m : Table 18 × BitVec 18) : (s.setECum m).dfreq = s.dfreq := rfl
@[simp] theorem setECum_dcum (m : Table 18 × BitVec 18) : (s.setECum m).dcum = s.dcum := rfl
@[simp] theorem setECum_out (m : Table 18 × BitVec 18) : (s.setECum m).out = s.out := rfl
@[simp] theorem setECum_src (m : Table 18 × BitVec 18) : (s.setECum m).src = s.src := rfl
@[simp] theorem setECum_srcpos (m : Table 18 × BitVec 18) : (s.setECum m).srcpos = s.srcpos := rfl
@[simp] theorem setECum_inputs (m : Table 18 × BitVec 18) : (s.setECum m).inputs = s.inputs := rfl
@[simp] theorem setECum_responses (m : Table 18 × BitVec 18) : (s.setECum m).responses = s.responses := rfl
@[simp] theorem setECum_draws (m : Table 18 × BitVec 18) : (s.setECum m).draws = s.draws := rfl

/-! ### setDFreq -/

@[simp] theorem setDFreq_eLow (t : Table 10) : (s.setDFreq t).eLow = s.eLow := rfl
@[simp] theorem setDFreq_eRange (t : Table 10) : (s.setDFreq t).eRange = s.eRange := rfl
@[simp] theorem setDFreq_eDirty (t : Table 10) : (s.setDFreq t).eDirty = s.eDirty := rfl
@[simp] theorem setDFreq_dLow (t : Table 10) : (s.setDFreq t).dLow = s.dLow := rfl
@[simp] theorem setDFreq_dRange (t : Table 10) : (s.setDFreq t).dRange = s.dRange := rfl
@[simp] theorem setDFreq_dCode (t : Table 10) : (s.setDFreq t).dCode = s.dCode := rfl
@[simp] theorem setDFreq_dTot (t : Table 10) : (s.setDFreq t).dTot = s.dTot := rfl
@[simp] theorem setDFreq_runtot (t : Table 10) : (s.setDFreq t).runtot = s.runtot := rfl
@[simp] theorem setDFreq_eTotal (t : Table 10) : (s.setDFreq t).eTotal = s.eTotal := rfl
@[simp] theorem setDFreq_dTotal (t : Table 10) : (s.setDFreq t).dTotal = s.dTotal := rfl
@[simp] theorem setDFreq_est (t : Table 10) : (s.setDFreq t).est = s.est := rfl
@[simp] theorem setDFreq_dst (t : Table 10) : (s.setDFreq t).dst = s.dst := rfl
@[simp] theorem setDFreq_dcs (t : Table 10) : (s.setDFreq t).dcs = s.dcs := rfl
@[simp] theorem setDFreq_fcause (t : Table 10) : (s.setDFreq t).fcause = s.fcause := rfl
@[simp] theorem setDFreq_finfo (t : Table 10) : (s.setDFreq t).finfo = s.finfo := rfl
@[simp] theorem setDFreq_efreq (t : Table 10) : (s.setDFreq t).efreq = s.efreq := rfl
@[simp] theorem setDFreq_ecum (t : Table 10) : (s.setDFreq t).ecum = s.ecum := rfl
@[simp] theorem setDFreq_dfreq (t : Table 10) : (s.setDFreq t).dfreq = t := rfl
@[simp] theorem setDFreq_dcum (t : Table 10) : (s.setDFreq t).dcum = s.dcum := rfl
@[simp] theorem setDFreq_out (t : Table 10) : (s.setDFreq t).out = s.out := rfl
@[simp] theorem setDFreq_src (t : Table 10) : (s.setDFreq t).src = s.src := rfl
@[simp] theorem setDFreq_srcpos (t : Table 10) : (s.setDFreq t).srcpos = s.srcpos := rfl
@[simp] theorem setDFreq_inputs (t : Table 10) : (s.setDFreq t).inputs = s.inputs := rfl
@[simp] theorem setDFreq_responses (t : Table 10) : (s.setDFreq t).responses = s.responses := rfl
@[simp] theorem setDFreq_draws (t : Table 10) : (s.setDFreq t).draws = s.draws := rfl

/-! ### setDCum -/

@[simp] theorem setDCum_eLow (m : Table 18 × BitVec 18) : (s.setDCum m).eLow = s.eLow := rfl
@[simp] theorem setDCum_eRange (m : Table 18 × BitVec 18) : (s.setDCum m).eRange = s.eRange := rfl
@[simp] theorem setDCum_eDirty (m : Table 18 × BitVec 18) : (s.setDCum m).eDirty = s.eDirty := rfl
@[simp] theorem setDCum_dLow (m : Table 18 × BitVec 18) : (s.setDCum m).dLow = s.dLow := rfl
@[simp] theorem setDCum_dRange (m : Table 18 × BitVec 18) : (s.setDCum m).dRange = s.dRange := rfl
@[simp] theorem setDCum_dCode (m : Table 18 × BitVec 18) : (s.setDCum m).dCode = s.dCode := rfl
@[simp] theorem setDCum_dTot (m : Table 18 × BitVec 18) : (s.setDCum m).dTot = s.dTot := rfl
@[simp] theorem setDCum_runtot (m : Table 18 × BitVec 18) : (s.setDCum m).runtot = s.runtot := rfl
@[simp] theorem setDCum_eTotal (m : Table 18 × BitVec 18) : (s.setDCum m).eTotal = s.eTotal := rfl
@[simp] theorem setDCum_dTotal (m : Table 18 × BitVec 18) : (s.setDCum m).dTotal = m.2 := rfl
@[simp] theorem setDCum_est (m : Table 18 × BitVec 18) : (s.setDCum m).est = s.est := rfl
@[simp] theorem setDCum_dst (m : Table 18 × BitVec 18) : (s.setDCum m).dst = s.dst := rfl
@[simp] theorem setDCum_dcs (m : Table 18 × BitVec 18) : (s.setDCum m).dcs = s.dcs := rfl
@[simp] theorem setDCum_fcause (m : Table 18 × BitVec 18) : (s.setDCum m).fcause = s.fcause := rfl
@[simp] theorem setDCum_finfo (m : Table 18 × BitVec 18) : (s.setDCum m).finfo = s.finfo := rfl
@[simp] theorem setDCum_efreq (m : Table 18 × BitVec 18) : (s.setDCum m).efreq = s.efreq := rfl
@[simp] theorem setDCum_ecum (m : Table 18 × BitVec 18) : (s.setDCum m).ecum = s.ecum := rfl
@[simp] theorem setDCum_dfreq (m : Table 18 × BitVec 18) : (s.setDCum m).dfreq = s.dfreq := rfl
@[simp] theorem setDCum_dcum (m : Table 18 × BitVec 18) : (s.setDCum m).dcum = m.1 := rfl
@[simp] theorem setDCum_out (m : Table 18 × BitVec 18) : (s.setDCum m).out = s.out := rfl
@[simp] theorem setDCum_src (m : Table 18 × BitVec 18) : (s.setDCum m).src = s.src := rfl
@[simp] theorem setDCum_srcpos (m : Table 18 × BitVec 18) : (s.setDCum m).srcpos = s.srcpos := rfl
@[simp] theorem setDCum_inputs (m : Table 18 × BitVec 18) : (s.setDCum m).inputs = s.inputs := rfl
@[simp] theorem setDCum_responses (m : Table 18 × BitVec 18) : (s.setDCum m).responses = s.responses := rfl
@[simp] theorem setDCum_draws (m : Table 18 × BitVec 18) : (s.setDCum m).draws = s.draws := rfl

/-! ### setFault -/

@[simp] theorem setFault_eLow (x : Cause) (w : Word) : (s.setFault x w).eLow = s.eLow := rfl
@[simp] theorem setFault_eRange (x : Cause) (w : Word) : (s.setFault x w).eRange = s.eRange := rfl
@[simp] theorem setFault_eDirty (x : Cause) (w : Word) : (s.setFault x w).eDirty = s.eDirty := rfl
@[simp] theorem setFault_dLow (x : Cause) (w : Word) : (s.setFault x w).dLow = s.dLow := rfl
@[simp] theorem setFault_dRange (x : Cause) (w : Word) : (s.setFault x w).dRange = s.dRange := rfl
@[simp] theorem setFault_dCode (x : Cause) (w : Word) : (s.setFault x w).dCode = s.dCode := rfl
@[simp] theorem setFault_dTot (x : Cause) (w : Word) : (s.setFault x w).dTot = s.dTot := rfl
@[simp] theorem setFault_runtot (x : Cause) (w : Word) : (s.setFault x w).runtot = s.runtot := rfl
@[simp] theorem setFault_eTotal (x : Cause) (w : Word) : (s.setFault x w).eTotal = s.eTotal := rfl
@[simp] theorem setFault_dTotal (x : Cause) (w : Word) : (s.setFault x w).dTotal = s.dTotal := rfl
@[simp] theorem setFault_est (x : Cause) (w : Word) : (s.setFault x w).est = s.est := rfl
@[simp] theorem setFault_dst (x : Cause) (w : Word) : (s.setFault x w).dst = s.dst := rfl
@[simp] theorem setFault_dcs (x : Cause) (w : Word) : (s.setFault x w).dcs = s.dcs := rfl
@[simp] theorem setFault_fcause (x : Cause) (w : Word) : (s.setFault x w).fcause = some x := rfl
@[simp] theorem setFault_finfo (x : Cause) (w : Word) : (s.setFault x w).finfo = w := rfl
@[simp] theorem setFault_efreq (x : Cause) (w : Word) : (s.setFault x w).efreq = s.efreq := rfl
@[simp] theorem setFault_ecum (x : Cause) (w : Word) : (s.setFault x w).ecum = s.ecum := rfl
@[simp] theorem setFault_dfreq (x : Cause) (w : Word) : (s.setFault x w).dfreq = s.dfreq := rfl
@[simp] theorem setFault_dcum (x : Cause) (w : Word) : (s.setFault x w).dcum = s.dcum := rfl
@[simp] theorem setFault_out (x : Cause) (w : Word) : (s.setFault x w).out = s.out := rfl
@[simp] theorem setFault_src (x : Cause) (w : Word) : (s.setFault x w).src = s.src := rfl
@[simp] theorem setFault_srcpos (x : Cause) (w : Word) : (s.setFault x w).srcpos = s.srcpos := rfl
@[simp] theorem setFault_inputs (x : Cause) (w : Word) : (s.setFault x w).inputs = s.inputs := rfl
@[simp] theorem setFault_responses (x : Cause) (w : Word) : (s.setFault x w).responses = s.responses := rfl
@[simp] theorem setFault_draws (x : Cause) (w : Word) : (s.setFault x w).draws = s.draws := rfl

/-! ### appendOut -/

@[simp] theorem appendOut_eLow (b : List Bool) : (s.appendOut b).eLow = s.eLow := rfl
@[simp] theorem appendOut_eRange (b : List Bool) : (s.appendOut b).eRange = s.eRange := rfl
@[simp] theorem appendOut_eDirty (b : List Bool) : (s.appendOut b).eDirty = s.eDirty := rfl
@[simp] theorem appendOut_dLow (b : List Bool) : (s.appendOut b).dLow = s.dLow := rfl
@[simp] theorem appendOut_dRange (b : List Bool) : (s.appendOut b).dRange = s.dRange := rfl
@[simp] theorem appendOut_dCode (b : List Bool) : (s.appendOut b).dCode = s.dCode := rfl
@[simp] theorem appendOut_dTot (b : List Bool) : (s.appendOut b).dTot = s.dTot := rfl
@[simp] theorem appendOut_runtot (b : List Bool) : (s.appendOut b).runtot = s.runtot := rfl
@[simp] theorem appendOut_eTotal (b : List Bool) : (s.appendOut b).eTotal = s.eTotal := rfl
@[simp] theorem appendOut_dTotal (b : List Bool) : (s.appendOut b).dTotal = s.dTotal := rfl
@[simp] theorem appendOut_est (b : List Bool) : (s.appendOut b).est = s.est := rfl
@[simp] theorem appendOut_dst (b : List Bool) : (s.appendOut b).dst = s.dst := rfl
@[simp] theorem appendOut_dcs (b : List Bool) : (s.appendOut b).dcs = s.dcs := rfl
@[simp] theorem appendOut_fcause (b : List Bool) : (s.appendOut b).fcause = s.fcause := rfl
@[simp] theorem appendOut_finfo (b : List Bool) : (s.appendOut b).finfo = s.finfo := rfl
@[simp] theorem appendOut_efreq (b : List Bool) : (s.appendOut b).efreq = s.efreq := rfl
@[simp] theorem appendOut_ecum (b : List Bool) : (s.appendOut b).ecum = s.ecum := rfl
@[simp] theorem appendOut_dfreq (b : List Bool) : (s.appendOut b).dfreq = s.dfreq := rfl
@[simp] theorem appendOut_dcum (b : List Bool) : (s.appendOut b).dcum = s.dcum := rfl
@[simp] theorem appendOut_out (b : List Bool) : (s.appendOut b).out = s.out ++ b := rfl
@[simp] theorem appendOut_src (b : List Bool) : (s.appendOut b).src = s.src := rfl
@[simp] theorem appendOut_srcpos (b : List Bool) : (s.appendOut b).srcpos = s.srcpos := rfl
@[simp] theorem appendOut_inputs (b : List Bool) : (s.appendOut b).inputs = s.inputs := rfl
@[simp] theorem appendOut_responses (b : List Bool) : (s.appendOut b).responses = s.responses := rfl
@[simp] theorem appendOut_draws (b : List Bool) : (s.appendOut b).draws = s.draws := rfl

/-! ### advance -/

@[simp] theorem advance_eLow (n : Nat) : (s.advance n).eLow = s.eLow := rfl
@[simp] theorem advance_eRange (n : Nat) : (s.advance n).eRange = s.eRange := rfl
@[simp] theorem advance_eDirty (n : Nat) : (s.advance n).eDirty = s.eDirty := rfl
@[simp] theorem advance_dLow (n : Nat) : (s.advance n).dLow = s.dLow := rfl
@[simp] theorem advance_dRange (n : Nat) : (s.advance n).dRange = s.dRange := rfl
@[simp] theorem advance_dCode (n : Nat) : (s.advance n).dCode = s.dCode := rfl
@[simp] theorem advance_dTot (n : Nat) : (s.advance n).dTot = s.dTot := rfl
@[simp] theorem advance_runtot (n : Nat) : (s.advance n).runtot = s.runtot := rfl
@[simp] theorem advance_eTotal (n : Nat) : (s.advance n).eTotal = s.eTotal := rfl
@[simp] theorem advance_dTotal (n : Nat) : (s.advance n).dTotal = s.dTotal := rfl
@[simp] theorem advance_est (n : Nat) : (s.advance n).est = s.est := rfl
@[simp] theorem advance_dst (n : Nat) : (s.advance n).dst = s.dst := rfl
@[simp] theorem advance_dcs (n : Nat) : (s.advance n).dcs = s.dcs := rfl
@[simp] theorem advance_fcause (n : Nat) : (s.advance n).fcause = s.fcause := rfl
@[simp] theorem advance_finfo (n : Nat) : (s.advance n).finfo = s.finfo := rfl
@[simp] theorem advance_efreq (n : Nat) : (s.advance n).efreq = s.efreq := rfl
@[simp] theorem advance_ecum (n : Nat) : (s.advance n).ecum = s.ecum := rfl
@[simp] theorem advance_dfreq (n : Nat) : (s.advance n).dfreq = s.dfreq := rfl
@[simp] theorem advance_dcum (n : Nat) : (s.advance n).dcum = s.dcum := rfl
@[simp] theorem advance_out (n : Nat) : (s.advance n).out = s.out := rfl
@[simp] theorem advance_src (n : Nat) : (s.advance n).src = s.src := rfl
@[simp] theorem advance_srcpos (n : Nat) : (s.advance n).srcpos = s.srcpos + n := rfl
@[simp] theorem advance_inputs (n : Nat) : (s.advance n).inputs = s.inputs := rfl
@[simp] theorem advance_responses (n : Nat) : (s.advance n).responses = s.responses := rfl
@[simp] theorem advance_draws (n : Nat) : (s.advance n).draws = s.draws := rfl

/-! ### answer -/

@[simp] theorem answer_eLow (x : BitVec 8) (d : Data) : (s.answer x d).eLow = s.eLow := rfl
@[simp] theorem answer_eRange (x : BitVec 8) (d : Data) : (s.answer x d).eRange = s.eRange := rfl
@[simp] theorem answer_eDirty (x : BitVec 8) (d : Data) : (s.answer x d).eDirty = s.eDirty := rfl
@[simp] theorem answer_dLow (x : BitVec 8) (d : Data) : (s.answer x d).dLow = s.dLow := rfl
@[simp] theorem answer_dRange (x : BitVec 8) (d : Data) : (s.answer x d).dRange = s.dRange := rfl
@[simp] theorem answer_dCode (x : BitVec 8) (d : Data) : (s.answer x d).dCode = s.dCode := rfl
@[simp] theorem answer_dTot (x : BitVec 8) (d : Data) : (s.answer x d).dTot = s.dTot := rfl
@[simp] theorem answer_runtot (x : BitVec 8) (d : Data) : (s.answer x d).runtot = s.runtot := rfl
@[simp] theorem answer_eTotal (x : BitVec 8) (d : Data) : (s.answer x d).eTotal = s.eTotal := rfl
@[simp] theorem answer_dTotal (x : BitVec 8) (d : Data) : (s.answer x d).dTotal = s.dTotal := rfl
@[simp] theorem answer_est (x : BitVec 8) (d : Data) : (s.answer x d).est = s.est := rfl
@[simp] theorem answer_dst (x : BitVec 8) (d : Data) : (s.answer x d).dst = s.dst := rfl
@[simp] theorem answer_dcs (x : BitVec 8) (d : Data) : (s.answer x d).dcs = s.dcs := rfl
@[simp] theorem answer_fcause (x : BitVec 8) (d : Data) : (s.answer x d).fcause = s.fcause := rfl
@[simp] theorem answer_finfo (x : BitVec 8) (d : Data) : (s.answer x d).finfo = s.finfo := rfl
@[simp] theorem answer_efreq (x : BitVec 8) (d : Data) : (s.answer x d).efreq = s.efreq := rfl
@[simp] theorem answer_ecum (x : BitVec 8) (d : Data) : (s.answer x d).ecum = s.ecum := rfl
@[simp] theorem answer_dfreq (x : BitVec 8) (d : Data) : (s.answer x d).dfreq = s.dfreq := rfl
@[simp] theorem answer_dcum (x : BitVec 8) (d : Data) : (s.answer x d).dcum = s.dcum := rfl
@[simp] theorem answer_out (x : BitVec 8) (d : Data) : (s.answer x d).out = s.out := rfl
@[simp] theorem answer_src (x : BitVec 8) (d : Data) : (s.answer x d).src = s.src := rfl
@[simp] theorem answer_srcpos (x : BitVec 8) (d : Data) : (s.answer x d).srcpos = s.srcpos := rfl
@[simp] theorem answer_inputs (x : BitVec 8) (d : Data) : (s.answer x d).inputs = s.inputs := rfl
@[simp] theorem answer_responses (x : BitVec 8) (d : Data) : (s.answer x d).responses = s.responses ++ [⟨x, d.d0, d.d1, d.d2⟩] := rfl
@[simp] theorem answer_draws (x : BitVec 8) (d : Data) : (s.answer x d).draws = s.draws := rfl

/-! ### setInputs -/

@[simp] theorem setInputs_eLow (r : List HostEvent) : (s.setInputs r).eLow = s.eLow := rfl
@[simp] theorem setInputs_eRange (r : List HostEvent) : (s.setInputs r).eRange = s.eRange := rfl
@[simp] theorem setInputs_eDirty (r : List HostEvent) : (s.setInputs r).eDirty = s.eDirty := rfl
@[simp] theorem setInputs_dLow (r : List HostEvent) : (s.setInputs r).dLow = s.dLow := rfl
@[simp] theorem setInputs_dRange (r : List HostEvent) : (s.setInputs r).dRange = s.dRange := rfl
@[simp] theorem setInputs_dCode (r : List HostEvent) : (s.setInputs r).dCode = s.dCode := rfl
@[simp] theorem setInputs_dTot (r : List HostEvent) : (s.setInputs r).dTot = s.dTot := rfl
@[simp] theorem setInputs_runtot (r : List HostEvent) : (s.setInputs r).runtot = s.runtot := rfl
@[simp] theorem setInputs_eTotal (r : List HostEvent) : (s.setInputs r).eTotal = s.eTotal := rfl
@[simp] theorem setInputs_dTotal (r : List HostEvent) : (s.setInputs r).dTotal = s.dTotal := rfl
@[simp] theorem setInputs_est (r : List HostEvent) : (s.setInputs r).est = s.est := rfl
@[simp] theorem setInputs_dst (r : List HostEvent) : (s.setInputs r).dst = s.dst := rfl
@[simp] theorem setInputs_dcs (r : List HostEvent) : (s.setInputs r).dcs = s.dcs := rfl
@[simp] theorem setInputs_fcause (r : List HostEvent) : (s.setInputs r).fcause = s.fcause := rfl
@[simp] theorem setInputs_finfo (r : List HostEvent) : (s.setInputs r).finfo = s.finfo := rfl
@[simp] theorem setInputs_efreq (r : List HostEvent) : (s.setInputs r).efreq = s.efreq := rfl
@[simp] theorem setInputs_ecum (r : List HostEvent) : (s.setInputs r).ecum = s.ecum := rfl
@[simp] theorem setInputs_dfreq (r : List HostEvent) : (s.setInputs r).dfreq = s.dfreq := rfl
@[simp] theorem setInputs_dcum (r : List HostEvent) : (s.setInputs r).dcum = s.dcum := rfl
@[simp] theorem setInputs_out (r : List HostEvent) : (s.setInputs r).out = s.out := rfl
@[simp] theorem setInputs_src (r : List HostEvent) : (s.setInputs r).src = s.src := rfl
@[simp] theorem setInputs_srcpos (r : List HostEvent) : (s.setInputs r).srcpos = s.srcpos := rfl
@[simp] theorem setInputs_inputs (r : List HostEvent) : (s.setInputs r).inputs = r := rfl
@[simp] theorem setInputs_responses (r : List HostEvent) : (s.setInputs r).responses = s.responses := rfl
@[simp] theorem setInputs_draws (r : List HostEvent) : (s.setInputs r).draws = s.draws := rfl

end Sys2Proof.Machine.State
end

