-- ==== Sys2Proof/Laws/Ops.lean ====
section
/-! SUPPORT. What the shared operations of Ops.lean can do: sequencing, banks, the streams, faults and
refusals, and the dispatch of 40_system.md R90. -/

namespace Sys2Proof.Machine

/-! ### Sequencing -/

@[simp] theorem Res.bind_ok {α β : Type} (a : α) (s : State) (f : α → State → Res β) :
    (Res.ok a s).bind f = f a s := rfl

@[simp] theorem Res.bind_raised {α β : Type} (x : Cause) (s : State) (f : α → State → Res β) :
    (Res.raised x s : Res α).bind f = .raised x s := rfl

@[simp] theorem Res.bind_diverged {α β : Type} (f : α → State → Res β) :
    (Res.diverged : Res α).bind f = .diverged := rfl

/-- A sequence ends normally only when both of its parts do. -/
theorem Res.bind_eq_ok {α β : Type} {r : Res α} {f : α → State → Res β} {b : β} {t : State}
    (h : r.bind f = .ok b t) : ∃ a u, r = .ok a u ∧ f a u = .ok b t := by
  cases r with
  | ok a u => exact ⟨a, u, rfl, h⟩
  | raised x u => cases h
  | diverged => cases h

/-- A sequence diverges only when one of its parts does. -/
theorem Res.bind_ne_diverged {α β : Type} {r : Res α} {f : α → State → Res β}
    (hr : r ≠ .diverged) (hf : ∀ a u, f a u ≠ .diverged) : r.bind f ≠ .diverged := by
  cases r with
  | ok a u => exact hf a u
  | raised x u => exact fun h => by cases h
  | diverged => exact absurd rfl hr

@[simp] theorem respond_ne_diverged (d0 d1 d2 : Word) (s : State) :
    respond d0 d1 d2 s ≠ .diverged := fun h => by cases h

/-! ### Banks -/

theorem readEntry_lt {w : Nat} (t : Table w) {i : Nat} (h : i < 256) : readEntry t i = t[i] :=
  dif_pos h

@[simp] theorem readEntry_writeEntry {w : Nat} (t : Table w) (i j : Nat) (v : BitVec w) (h : i < 256) :
    readEntry (writeEntry t i v) j = if j = i then v else readEntry t j := by
  unfold readEntry writeEntry
  rw [dif_pos h]
  by_cases hj : j < 256
  · simp only [dif_pos hj, Vector.getElem_set, eq_comm]
  · have : j ≠ i := by omega
    simp [hj, this]

theorem getElem_mapEntries {α β : Type} (f : α → β) (t : Vector α 256) (i : Nat) (h : i < 256) :
    (mapEntries f t)[i] = f t[i] := by
  simp [mapEntries]

@[simp] theorem toList_mapEntries {α β : Type} (f : α → β) (t : Vector α 256) :
    (mapEntries f t).toList = t.toList.map f := by
  simp [mapEntries]

@[simp] theorem readEntry_tableOf {w : Nat} (f : Nat → BitVec w) (i : Nat) (h : i < 256) :
    readEntry (tableOf f) i = f i := by
  rw [readEntry_lt _ h]
  simp [tableOf]

/-- Two banks with the same entries are the same bank. -/
theorem table_ext {w : Nat} {t u : Table w} (h : ∀ i < 256, readEntry t i = readEntry u i) :
    t = u := by
  ext i hi
  have := h i hi
  rw [readEntry_lt _ hi, readEntry_lt _ hi] at this
  rw [this]

/-! ### The streams -/

@[simp] theorem length_bitsMsbFirst (n v : Nat) : (bitsMsbFirst n v).length = n := by
  simp [bitsMsbFirst]

theorem getElem_bitsMsbFirst (n v k : Nat) (h : k < (bitsMsbFirst n v).length) :
    (bitsMsbFirst n v)[k] = v.testBit (n - 1 - k) := by
  simp [bitsMsbFirst]

/-- The first bit pushed is bit n of n + 1, the rest are the n low-order bits. -/
theorem bitsMsbFirst_succ (n v : Nat) :
    bitsMsbFirst (n + 1) v = v.testBit n :: bitsMsbFirst n v := by
  unfold bitsMsbFirst
  rw [List.range_succ_eq_map, List.map_cons, List.map_map]
  congr 1
  apply List.map_congr_left
  intro k hk
  rw [List.mem_range] at hk
  show v.testBit (n + 1 - 1 - (k + 1)) = v.testBit (n - 1 - k)
  congr 1
  omega

theorem foldl_bits (bits : List Bool) (acc : Nat) :
    bits.foldl (fun acc b => 2 * acc + b.toNat) acc = acc * 2 ^ bits.length + natOfBits bits := by
  induction bits generalizing acc with
  | nil => simp [natOfBits]
  | cons b rest ih =>
    rw [natOfBits, List.foldl_cons, List.foldl_cons, ih, ih (2 * 0 + b.toNat), List.length_cons,
      pow_succ]
    ring

theorem natOfBits_cons (b : Bool) (bits : List Bool) :
    natOfBits (b :: bits) = b.toNat * 2 ^ bits.length + natOfBits bits := by
  rw [natOfBits, List.foldl_cons, foldl_bits]
  simp

theorem natOfBits_append (x y : List Bool) :
    natOfBits (x ++ y) = natOfBits x * 2 ^ y.length + natOfBits y := by
  rw [natOfBits, List.foldl_append, foldl_bits]
  rfl

theorem natOfBits_lt (bits : List Bool) : natOfBits bits < 2 ^ bits.length := by
  induction bits with
  | nil => simp [natOfBits]
  | cons b rest ih =>
    rw [natOfBits_cons, List.length_cons, pow_succ]
    cases b <;> simp <;> omega

/-- Push and Pop are mirror images (20_memory.md R53): the bits of v read back as v modulo 2^n. -/
theorem natOfBits_bitsMsbFirst (n v : Nat) : natOfBits (bitsMsbFirst n v) = v % 2 ^ n := by
  induction n with
  | zero => simp [bitsMsbFirst, natOfBits, Nat.mod_one]
  | succ n ih =>
    rw [bitsMsbFirst_succ, natOfBits_cons, ih, length_bitsMsbFirst, Nat.mod_pow_succ,
      Nat.testBit_eq_decide_div_mod_eq]
    rcases Nat.mod_two_eq_zero_or_one (v / 2 ^ n) with h | h
    · simp [h]
    · simp [h]
      omega

@[simp] theorem push_eq (n v : Nat) (s : State) : push n v s = s.appendOut (bitsMsbFirst n v) := rfl

/-- What Pop can do (20_memory.md R53). -/
theorem pop_cases (n : Nat) (s : State) :
    (bitsLeft s < n ∧ pop n s = .raised .srcUnderflow s) ∨
    (n ≤ bitsLeft s ∧ pop n s =
      .ok (BitVec.ofNat n (natOfBits ((s.src.drop s.srcpos).take n))) (s.advance n)) := by
  unfold pop
  by_cases h : bitsLeft s < n
  · exact .inl ⟨h, if_pos h⟩
  · exact .inr ⟨Nat.le_of_not_lt h, if_neg h⟩

theorem pop_ne_diverged (n : Nat) (s : State) : pop n s ≠ .diverged := by
  rcases pop_cases n s with ⟨-, h⟩ | ⟨-, h⟩ <;> rw [h] <;> exact fun h => by cases h

@[simp] theorem bitsLeft_advance (s : State) (n : Nat) :
    bitsLeft (s.advance n) = bitsLeft s - n := by
  unfold bitsLeft State.advance
  simp only
  omega

/-! ### Faults, refusals, dispatch -/

@[simp] theorem takeFault_fcause (x : Cause) (cw : Word) (s : State) :
    (takeFault x cw s).fcause = some x := rfl

@[simp] theorem takeFault_finfo (x : Cause) (cw : Word) (s : State) :
    (takeFault x cw s).finfo = cw := rfl

@[simp] theorem refuse_fcause (x : Cause) (s : State) : (refuse x s).fcause = s.fcause := rfl

@[simp] theorem refuse_finfo (x : Cause) (s : State) : (refuse x s).finfo = s.finfo := rfl

@[simp] theorem resetCore_fcause (s : State) : (resetCore s).fcause = none := rfl

@[simp] theorem resetCore_out (s : State) : (resetCore s).out = s.out := rfl

@[simp] theorem resetCore_src (s : State) : (resetCore s).src = s.src := rfl

@[simp] theorem resetCore_srcpos (s : State) : (resetCore s).srcpos = s.srcpos := rfl

/-- Everything a dispatched command can do (40_system.md R90), when its pseudocode does not diverge:
refused while faulted, executed while faulted, PROTOCOL, CONTRACT, a fault of the pseudocode, or run
to its end. -/
theorem runCommand_cases {i : Instr} {r : Res Data} {s t : State}
    (h : runCommand i r s = .next t) :
    (∃ x, s.fcause = some x ∧ t = refuse x s) ∨
    (∃ x d u, s.fcause = some x ∧ executesWhileFaulted i = true ∧ r = .ok d u ∧ t = u.answer 0 d) ∨
    (s.fcause = none ∧ protocolHolds i s = false ∧ t = takeFault .protocol (cwOf i) s) ∨
    (s.fcause = none ∧ protocolHolds i s = true ∧ contractHolds i s = false ∧
      t = takeFault .contract (cwOf i) s) ∨
    (s.fcause = none ∧ protocolHolds i s = true ∧ contractHolds i s = true ∧
      ∃ x u, r = .raised x u ∧ t = takeFault x (cwOf i) u) ∨
    (s.fcause = none ∧ protocolHolds i s = true ∧ contractHolds i s = true ∧
      ∃ d u, r = .ok d u ∧ t = u.answer 0 d) := by
  unfold runCommand at h
  split at h
  · rename_i x hx
    unfold runFaulted at h
    split at h
    · rename_i hc
      simp only [Bool.and_eq_true] at hc
      split at h
      · rename_i d u
        cases h
        exact .inr (.inl ⟨x, d, u, hx, hc.1.1, rfl, rfl⟩)
      · cases h
        exact .inl ⟨x, hx, rfl⟩
      · cases h
    · cases h
      exact .inl ⟨x, hx, rfl⟩
  · rename_i hn
    split at h
    · rename_i hp
      cases h
      exact .inr (.inr (.inl ⟨hn, by simpa using hp, rfl⟩))
    · rename_i hp
      split at h
      · rename_i hc
        cases h
        exact .inr (.inr (.inr (.inl ⟨hn, by simpa using hp, by simpa using hc, rfl⟩)))
      · rename_i hc
        refine .inr (.inr (.inr (.inr ?_)))
        have hp' : protocolHolds i s = true := by simpa using hp
        have hc' : contractHolds i s = true := by simpa using hc
        unfold conclude at h
        split at h
        · cases h
          exact .inr ⟨hn, hp', hc', _, _, rfl, rfl⟩
        · cases h
          exact .inl ⟨hn, hp', hc', _, _, rfl, rfl⟩
        · cases h

/-- A dispatched command whose pseudocode does not diverge answers a next state. -/
theorem runCommand_answers (i : Instr) {r : Res Data} (s : State) (hr : r ≠ .diverged) :
    ∃ t, runCommand i r s = .next t := by
  unfold runCommand runFaulted conclude
  cases r with
  | diverged => exact absurd rfl hr
  | ok d u => repeat' split
              all_goals first | exact ⟨_, rfl⟩ | contradiction
  | raised x u => repeat' split
                  all_goals first | exact ⟨_, rfl⟩ | contradiction

/-- An unfaulted command whose conditions hold concludes with its pseudocode's result. -/
theorem runCommand_unfaulted {i : Instr} {r : Res Data} {s : State} (hn : s.fcause = none)
    (hp : protocolHolds i s = true) (hc : contractHolds i s = true) :
    runCommand i r s = conclude (cwOf i) r := by
  simp [runCommand, hn, hp, hc]

/-- While faulted, a command outside the seven of R90 step 1 is refused. -/
theorem runCommand_faulted {i : Instr} {r : Res Data} {s : State} {x : Cause}
    (hx : s.fcause = some x) (hi : executesWhileFaulted i = false) :
    runCommand i r s = .next (refuse x s) := by
  simp [runCommand, runFaulted, hx, hi]

end Sys2Proof.Machine
end

