-- ==== Sys2Proof/Laws/Coder.lean ====
section
/-! SUPPORT. The renormalisation condition in natural numbers (42_range_encoder.md R128), the loop
bound (R130 (4), from every non-zero range), and why no loop of the model diverges (log 7). -/

namespace Sys2Proof.Machine

/-- Two 32-bit values differ by less than 2^24 under XOR exactly when their top bytes agree
(00_scope.md R6). -/
theorem xor_lt_top_iff (a b : Word) :
    (a ^^^ b).toNat < Config.top ↔ a.toNat / 2 ^ 24 = b.toNat / 2 ^ 24 := by
  have key : (a ^^^ b).toNat / 2 ^ 24 = a.toNat / 2 ^ 24 ^^^ b.toNat / 2 ^ 24 := by
    rw [BitVec.toNat_xor, ← Nat.shiftRight_eq_div_pow, ← Nat.shiftRight_eq_div_pow,
      ← Nat.shiftRight_eq_div_pow, Nat.shiftRight_xor_distrib]
  unfold Config.top
  constructor
  · intro h
    rw [Nat.div_eq_of_lt h] at key
    exact Nat.xor_eq_zero_iff.mp key.symm
  · intro h
    rw [h, Nat.xor_self] at key
    omega

/-- The clamp as arithmetic: (2^32 − low) mod 2^16 (42_range_encoder.md R128). -/
theorem toNat_clamp (low : Word) : (clamp low).toNat = (2 ^ 32 - low.toNat) % 2 ^ 16 := by
  unfold clamp Config.floor
  rw [BitVec.toNat_and, BitVec.toNat_neg, BitVec.toNat_ofNat]
  have : (2 ^ 16 - 1) % 2 ^ 32 = 2 ^ 16 - 1 := by norm_num
  rw [this, Nat.and_two_pow_sub_one_eq_mod]
  omega

/-- `stable` as arithmetic. -/
theorem stable_iff (low range : Word) :
    stable low range = true ↔
      low.toNat / 2 ^ 24 = (low.toNat + range.toNat) % 2 ^ 32 / 2 ^ 24 := by
  unfold stable
  rw [decide_eq_true_iff, xor_lt_top_iff, BitVec.toNat_add]

/-- The three outcomes of the condition, in order (42_range_encoder.md R128). -/
theorem renormCond_cases (low range : Word) :
    (stable low range = true ∧ renormCond low range = (true, range)) ∨
    (stable low range = false ∧ range.toNat < Config.floor ∧
      renormCond low range = (true, clamp low)) ∨
    (stable low range = false ∧ Config.floor ≤ range.toNat ∧
      renormCond low range = (false, range)) := by
  unfold renormCond
  by_cases hs : stable low range = true
  · exact .inl ⟨hs, if_pos hs⟩
  · rw [if_neg hs]
    by_cases hf : range.toNat < Config.floor
    · exact .inr (.inl ⟨by simpa using hs, hf, if_pos hf⟩)
    · exact .inr (.inr ⟨by simpa using hs, Nat.le_of_not_lt hf, if_neg hf⟩)

theorem toNat_shl8 (v : Word) : (v <<< 8).toNat = v.toNat * 256 % 2 ^ 32 := by
  rw [BitVec.toNat_shiftLeft, Nat.shiftLeft_eq]

/-- The loop ends within k tests. -/
def EndsIn (k : Nat) (low range : Word) : Prop :=
  match k with
  | 0 => False
  | k + 1 =>
    (renormCond low range).1 = true → EndsIn k (low <<< 8) ((renormCond low range).2 <<< 8)

theorem EndsIn.mono {k : Nat} {low range : Word} (h : EndsIn k low range) :
    EndsIn (k + 1) low range := by
  induction k generalizing low range with
  | zero => exact h.elim
  | succ k ih => exact fun hc => ih (h hc)

/-- An unstable pair above the floor ends the loop. -/
theorem endsIn_one {low range : Word}
    (h : low.toNat / 2 ^ 24 ≠ (low.toNat + range.toNat) % 2 ^ 32 / 2 ^ 24)
    (hf : Config.floor ≤ range.toNat) : EndsIn 1 low range := by
  intro hc
  rcases renormCond_cases low range with ⟨hs, -⟩ | ⟨-, hlt, -⟩ | ⟨-, -, he⟩
  · exact h ((stable_iff _ _).mp hs)
  · omega
  · rw [he] at hc
    cases hc

theorem not_stable_iff {low range : Word} (h : stable low range = false) :
    low.toNat / 2 ^ 24 ≠ (low.toNat + range.toNat) % 2 ^ 32 / 2 ^ 24 := fun he => by
  rw [(stable_iff _ _).mpr he] at h
  cases h

/-- After a clamp and its shift the sum is a multiple of 2^24; from there one more test or two. -/
theorem endsIn_aligned {low range : Word} (hsum : (low.toNat + range.toNat) % 2 ^ 24 = 0)
    (h0 : 2 ^ 8 ≤ range.toNat) (hlt : range.toNat < 2 ^ 24) : EndsIn 2 low range := by
  have hl := low.isLt
  have hfl : Config.floor = 2 ^ 16 := rfl
  have hL := toNat_shl8 low
  have hR := toNat_shl8 (clamp low)
  rw [toNat_clamp] at hR
  have huns : low.toNat / 2 ^ 24 ≠ (low.toNat + range.toNat) % 2 ^ 32 / 2 ^ 24 := by omega
  intro hc
  rcases renormCond_cases low range with ⟨hs, -⟩ | ⟨-, hlt', he⟩ | ⟨-, -, he⟩
  · exact absurd ((stable_iff _ _).mp hs) huns
  · rw [he]
    have hclamp : (2 ^ 32 - low.toNat) % 2 ^ 16 = range.toNat := by omega
    have hlow : low.toNat * 256 % 2 ^ 32 = 2 ^ 32 - range.toNat * 256 := by omega
    rw [hclamp] at hR
    rw [hlow] at hL
    apply endsIn_one <;> simp only [hL, hR] <;> omega
  · rw [he] at hc
    cases hc

/-- From a pair of multiples of 2^16, at most one more stable iteration. -/
theorem endsIn_of_dvd16 {low range : Word} (hl : low.toNat % 2 ^ 16 = 0)
    (hr : range.toNat % 2 ^ 16 = 0) (h0 : range.toNat ≠ 0) : EndsIn 2 low range := by
  have hll := low.isLt
  have hrl := range.isLt
  have hfl : Config.floor = 2 ^ 16 := rfl
  have hL := toNat_shl8 low
  have hR := toNat_shl8 range
  intro hc
  rcases renormCond_cases low range with ⟨hs, he⟩ | ⟨-, hlt, -⟩ | ⟨-, -, he⟩
  · rw [he]
    have hs' := (stable_iff _ _).mp hs
    apply endsIn_one <;> simp only [hL, hR] <;> omega
  · omega
  · rw [he] at hc
    cases hc

/-- From a pair of multiples of 2^8, three tests. -/
theorem endsIn_of_dvd8 {low range : Word} (hl : low.toNat % 2 ^ 8 = 0)
    (hr : range.toNat % 2 ^ 8 = 0) (h0 : range.toNat ≠ 0) : EndsIn 3 low range := by
  have hll := low.isLt
  have hrl := range.isLt
  have hfl : Config.floor = 2 ^ 16 := rfl
  have hL := toNat_shl8 low
  have hR := toNat_shl8 range
  have hC := toNat_shl8 (clamp low)
  rw [toNat_clamp] at hC
  intro hc
  rcases renormCond_cases low range with ⟨hs, he⟩ | ⟨hs, hlt, he⟩ | ⟨-, -, he⟩
  · have hs' := (stable_iff _ _).mp hs
    rw [he]
    apply endsIn_of_dvd16 <;> simp only [hL, hR] <;> omega
  · have hs' := not_stable_iff hs
    rw [he]
    apply EndsIn.mono
    apply endsIn_one <;> simp only [hL, hC] <;> omega
  · rw [he] at hc
    cases hc

/-- THE LOOP BOUND (42_range_encoder.md R130 (4)), from every pair with a non-zero range: at most three
iterations, so four tests. -/
theorem endsIn_four {low range : Word} (h0 : range.toNat ≠ 0) : EndsIn 4 low range := by
  have hll := low.isLt
  have hrl := range.isLt
  have hfl : Config.floor = 2 ^ 16 := rfl
  have hL := toNat_shl8 low
  have hR := toNat_shl8 range
  have hC := toNat_shl8 (clamp low)
  rw [toNat_clamp] at hC
  intro hc
  rcases renormCond_cases low range with ⟨hs, he⟩ | ⟨hs, hlt, he⟩ | ⟨-, -, he⟩
  · have hs' := (stable_iff _ _).mp hs
    rw [he]
    apply endsIn_of_dvd8 <;> simp only [hL, hR] <;> omega
  · have hs' := not_stable_iff hs
    rw [he]
    apply EndsIn.mono
    apply endsIn_aligned <;> simp only [hL, hC] <;> omega
  · rw [he] at hc
    cases hc

/-- What Narrow can do (42_range_encoder.md R126). -/
theorem narrow_cases (low range start width total : Word) :
    (range / total = 0 ∧ narrow low range start width total = none) ∨
    (range / total ≠ 0 ∧ narrow low range start width total =
      some (low + start * (range / total), range / total * width)) := by
  unfold narrow
  by_cases h : range / total = 0
  · exact .inl ⟨h, if_pos h⟩
  · exact .inr ⟨h, if_neg h⟩

/-- The parts of a contract that holds (42_range_encoder.md R125). -/
theorem checkTriple_iff (start width total : Nat) :
    checkTriple start width total = true ↔
      1 ≤ width ∧ 1 ≤ total ∧ total < Config.maxTotal ∧ start + width ≤ total := by
  unfold checkTriple
  exact decide_eq_true_iff

/-- A triple that passed its check never gives a zero range, and the product does not wrap (R126). -/
theorem toNat_narrowed {range width total : Word} (hw : width.toNat ≤ total.toNat) :
    (range / total * width).toNat = range.toNat / total.toNat * width.toNat := by
  rw [BitVec.toNat_mul, BitVec.toNat_udiv]
  apply Nat.mod_eq_of_lt
  have h1 : range.toNat / total.toNat * width.toNat ≤ range.toNat / total.toNat * total.toNat :=
    Nat.mul_le_mul_left _ hw
  have h2 : range.toNat / total.toNat * total.toNat ≤ range.toNat := Nat.div_mul_le_self _ _
  have := range.isLt
  omega

/-- RenormE ends when the loop on its pair does. -/
theorem renormE_ne_diverged {k n : Nat} {s : State} (h : EndsIn k s.eLow s.eRange) :
    renormE k n s ≠ .diverged := by
  induction k generalizing n s with
  | zero => exact h.elim
  | succ k ih =>
    unfold renormE
    simp only
    split
    · rename_i hc
      exact ih (h hc)
    · exact fun h => by cases h

/-- RenormD ends, for each iteration takes a byte from the source (43_range_decoder.md R144). -/
theorem renormD_ne_diverged {k n : Nat} {s : State} (h : bitsLeft s / 8 < k) :
    renormD k n s ≠ .diverged := by
  induction k generalizing n s with
  | zero => omega
  | succ k ih =>
    unfold renormD
    simp only
    split
    · rcases pop_cases 8 s with ⟨-, hp⟩ | ⟨hle, hp⟩
      · rw [hp]
        exact fun h => by cases h
      · rw [hp, Res.bind_ok]
        apply ih
        show bitsLeft (s.advance 8) / 8 < k
        rw [bitsLeft_advance]
        omega
    · exact fun h => by cases h

/-- ENC_ENCODE's pseudocode does not diverge on a triple that passed its check (log 7). -/
theorem encodeTriple_ne_diverged {start width total : Word} (s : State)
    (h : checkTriple start.toNat width.toNat total.toNat = true) :
    encodeTriple start width total s ≠ .diverged := by
  obtain ⟨hw, -, -, hle⟩ := (checkTriple_iff _ _ _).mp h
  unfold encodeTriple
  simp only
  rcases narrow_cases (s.setDirty true).eLow (s.setDirty true).eRange start width total with
    ⟨-, hn⟩ | ⟨hr, hn⟩ <;> rw [hn]
  · exact fun h => by cases h
  · apply renormE_ne_diverged
    apply endsIn_four
    simp only [State.setEnc_eRange]
    rw [toNat_narrowed (by omega)]
    have hr' : (s.setDirty true).eRange.toNat / total.toNat ≠ 0 := fun h0 =>
      hr (BitVec.eq_of_toNat_eq (by rw [BitVec.toNat_udiv, h0]; rfl))
    exact Nat.mul_ne_zero hr' (by omega)

/-- The decoder's commit does not diverge from any state (log 7). -/
theorem commitTriple_ne_diverged (start width : Word) (s : State) :
    commitTriple start width s ≠ .diverged := by
  unfold commitTriple
  apply Res.bind_ne_diverged
  · apply renormD_ne_diverged
    show bitsLeft s / 8 < decFuel s
    unfold decFuel
    omega
  · exact fun _ _ h => by cases h

end Sys2Proof.Machine
end

