-- ==== Sys2Proof/Laws/Decode.lean ====
section
/-! SUPPORT. The fields of an assembled command word (30_encoding.md R71). -/

namespace Sys2Proof

/-- The value of a command word. -/
theorem toNat_commandWord (op imm : Byte) :
    (commandWord op imm).toNat = op.toNat * 2 ^ 24 + imm.toNat := by
  have h1 := op.isLt
  have h2 := imm.isLt
  unfold commandWord
  rw [BitVec.toNat_append, BitVec.toNat_append, BitVec.toNat_zero,
    Nat.or_zero, ← Nat.shiftLeft_add_eq_or_of_lt h2, Nat.shiftLeft_eq, Nat.shiftLeft_eq]
  ring

/-- The opcode, the reserved field and the immediate read back from the word they were put in. -/
theorem fields_commandWord (op imm : Byte) :
    (commandWord op imm).extractLsb' 24 8 = op ∧ (commandWord op imm).extractLsb' 8 16 = 0 ∧
      (commandWord op imm).extractLsb' 0 8 = imm := by
  have h1 := op.isLt
  have h2 := imm.isLt
  refine ⟨?_, ?_, ?_⟩ <;> apply BitVec.eq_of_toNat_eq <;>
    rw [BitVec.extractLsb'_toNat, toNat_commandWord, Nat.shiftRight_eq_div_pow]
  · omega
  · show _ = 0
    omega
  · omega

@[simp] theorem opcode_mk (op imm : Byte) (a b c : Word) :
    Command.opcode ⟨commandWord op imm, a, b, c⟩ = op := (fields_commandWord op imm).1

@[simp] theorem zeroField_mk (op imm : Byte) (a b c : Word) :
    Command.zeroField ⟨commandWord op imm, a, b, c⟩ = 0 := (fields_commandWord op imm).2.1

@[simp] theorem imm8_mk (op imm : Byte) (a b c : Word) :
    Command.imm8 ⟨commandWord op imm, a, b, c⟩ = imm := (fields_commandWord op imm).2.2

end Sys2Proof
end

