-- ==== Sys2Proof/Laws/Model.lean ====
section
/-! SUPPORT. Sums and the prefix-sum table (41_model_builder.md R103, R105): no sum of a frequency table
exceeds its 18 bits (00_scope.md R11), and what BuildCum writes. -/

namespace Sys2Proof.Machine

theorem getElem_runningSums (acc : Nat) (l : List Nat) (i : Nat)
    (h : i < (runningSums acc l).length) :
    (runningSums acc l)[i] = acc + (l.take (i + 1)).sum := by
  induction l generalizing acc i with
  | nil => simp [runningSums] at h
  | cons x xs ih =>
    cases i with
    | zero => simp [runningSums]
    | succ i => simp [runningSums, ih, Nat.add_assoc]

theorem sum_le_of_le {l : List Nat} {b : Nat} (h : ∀ x ∈ l, x ≤ b) : l.sum ≤ l.length * b := by
  induction l with
  | nil => simp
  | cons x xs ih =>
    have h1 := ih fun y hy => h y (List.mem_cons_of_mem _ hy)
    have h2 := h x List.mem_cons_self
    rw [List.sum_cons, List.length_cons, Nat.succ_mul]
    omega

/-- Every sum of entries of a 10-bit table is at most 256 × 1023 (00_scope.md R11). -/
theorem prefixSum_le (freq : Table 10) (i : Nat) : prefixSum freq i ≤ 261888 := by
  have hlen : (freq.toList.take (i + 1)).length ≤ 256 := by
    rw [List.length_take, Vector.length_toList]
    omega
  have hb : ∀ x ∈ (freq.toList.take (i + 1)).map BitVec.toNat, x ≤ 1023 := by
    intro x hx
    obtain ⟨v, -, rfl⟩ := List.mem_map.mp hx
    have := v.isLt
    omega
  have h := sum_le_of_le hb
  rw [List.length_map] at h
  unfold prefixSum
  have : (freq.toList.take (i + 1)).length * 1023 ≤ 256 * 1023 := Nat.mul_le_mul_right _ hlen
  omega

/-- A prefix sum grows by the next entry. -/
theorem prefixSum_succ (freq : Table 10) {i : Nat} (h : i + 1 < 256) :
    prefixSum freq (i + 1) = prefixSum freq i + (readEntry freq (i + 1)).toNat := by
  have hi : i + 1 < freq.toList.length := by simpa using h
  unfold prefixSum
  rw [List.take_succ_eq_append_getElem hi, List.map_append, List.sum_append, readEntry_lt _ h]
  simp

theorem prefixSum_zero (freq : Table 10) : prefixSum freq 0 = (readEntry freq 0).toNat := by
  have h0 : 0 < freq.toList.length := by simp
  unfold prefixSum
  rw [List.take_succ_eq_append_getElem h0, readEntry_lt _ (by omega)]
  simp

/-- Prefix sums are non-decreasing (41_model_builder.md R105). -/
theorem prefixSum_mono (freq : Table 10) {i j : Nat} (hij : i ≤ j) (hj : j < 256) :
    prefixSum freq i ≤ prefixSum freq j := by
  induction j with
  | zero =>
    have : i = 0 := by omega
    rw [this]
  | succ j ih =>
    rcases Nat.lt_or_ge i (j + 1) with h | h
    · have := ih (by omega) (by omega)
      rw [prefixSum_succ freq hj]
      omega
    · have : i = j + 1 := by omega
      rw [this]

/-- The whole sum is the last prefix sum. -/
theorem sum_toList (freq : Table 10) : (freq.toList.map BitVec.toNat).sum = prefixSum freq 255 := by
  unfold prefixSum
  rw [List.take_of_length_le (by simp)]

/-- The entries BuildCum writes are the prefix sums, without truncation (41_model_builder.md R105). -/
theorem readEntry_buildCum (freq : Table 10) {i : Nat} (h : i < 256) :
    (readEntry (buildCum freq).1 i).toNat = prefixSum freq i := by
  have hb := prefixSum_le freq i
  rw [readEntry_lt _ h]
  simp only [buildCum, Vector.getElem_mk, List.getElem_toArray, List.getElem_map,
    getElem_runningSums, Nat.zero_add, BitVec.toNat_ofNat, ← List.map_take]
  show prefixSum freq i % 2 ^ 18 = prefixSum freq i
  omega

/-- BuildCum's total is the whole sum plus one (41_model_builder.md R105). -/
theorem buildCum_total (freq : Table 10) :
    (buildCum freq).2.toNat = prefixSum freq 255 + 1 := by
  have hb := prefixSum_le freq 255
  simp only [buildCum, BitVec.toNat_ofNat, sum_toList]
  omega

/-- BuildCum makes a model that belongs to its table. -/
theorem modelOk_buildCum (freq : Table 10) :
    ModelOk freq (buildCum freq).1 (buildCum freq).2 :=
  ⟨fun _ h => readEntry_buildCum freq h, by
    rw [buildCum_total, readEntry_buildCum freq (by omega)]⟩

/-- The cumulative table of a model is non-decreasing. -/
theorem ModelOk.mono {freq : Table 10} {cum : Table 18} {total : BitVec 18}
    (h : ModelOk freq cum total) {i j : Nat} (hij : i ≤ j) (hj : j < 256) :
    (readEntry cum i).toNat ≤ (readEntry cum j).toNat := by
  rw [h.1 i (by omega), h.1 j hj]
  exact prefixSum_mono freq hij hj

/-- In a model, start + width is the entry itself (42_range_encoder.md R129). -/
theorem ModelOk.tripleOf_sum {freq : Table 10} {cum : Table 18} {total : BitVec 18}
    (h : ModelOk freq cum total) {m : Nat} (hm : m < 256) :
    (tripleOf cum m).1 + (tripleOf cum m).2 = (readEntry cum m).toNat := by
  unfold tripleOf
  simp only
  split
  · have := h.mono (i := m - 1) (j := m) (by omega) hm
    omega
  · omega

/-- The bits Push appends for a list of entries (41_model_builder.md R106). -/
theorem pushEntries_eq (entries : List (BitVec 10)) (s : State) :
    pushEntries entries s = s.appendOut (entries.flatMap fun v => bitsMsbFirst 10 v.toNat) := by
  induction entries generalizing s with
  | nil => simp [pushEntries, State.appendOut]
  | cons v rest ih => simp [pushEntries, ih, State.appendOut]

theorem halve_pos {v : Nat} (h : 1 ≤ v) : 1 ≤ halve v := by
  unfold halve
  split <;> omega

theorem halve_le (v : Nat) : halve v ≤ v := by
  unfold halve
  split <;> omega

theorem halve_zero : halve 0 = 0 := rfl

/-- HDR_READ's loop ends (41_model_builder.md R107). -/
theorem readEntries_ne_diverged (k : Nat) (s : State) : readEntries k s ≠ .diverged := by
  induction k generalizing s with
  | zero => exact fun h => by cases h
  | succ k ih => exact Res.bind_ne_diverged (pop_ne_diverged _ _) fun _ _ => ih _

end Sys2Proof.Machine
end

