-- ==== Sys2Proof/Laws/Lookup.lean ====
section
/-! SUPPORT. The bisection and the walk back of Lookup (43_range_decoder.md R145, 90_conflicts.md C5). -/

namespace Sys2Proof.Machine

/-- The bisection's invariant at its end: the result is in the range, its entry is above f if the upper
bound's was, and every earlier entry is at most f if those below the lower bound were. -/
theorem bisect_spec {cum : Table 18} {f : Nat}
    (hmono : ∀ i j, i ≤ j → j < 256 → (readEntry cum i).toNat ≤ (readEntry cum j).toNat)
    (k lo hi : Nat) (hlh : lo ≤ hi) (hhi : hi < 256) (hk : hi - lo < 2 ^ k)
    (htop : f < (readEntry cum hi).toNat) (hlow : ∀ i < lo, (readEntry cum i).toNat ≤ f) :
    bisect cum f k lo hi ≤ hi ∧ f < (readEntry cum (bisect cum f k lo hi)).toNat ∧
      ∀ i < bisect cum f k lo hi, (readEntry cum i).toNat ≤ f := by
  induction k generalizing lo hi with
  | zero =>
    have : lo = hi := by omega
    subst this
    exact ⟨Nat.le_refl _, htop, hlow⟩
  | succ k ih =>
    unfold bisect
    rw [pow_succ] at hk
    split
    · rename_i hlt
      split
      · rename_i hgt
        obtain ⟨h1, h2, h3⟩ := ih lo ((lo + hi) / 2) (by omega) (by omega) (by omega) hgt hlow
        exact ⟨by omega, h2, h3⟩
      · rename_i hle
        refine ih ((lo + hi) / 2 + 1) hi (by omega) hhi (by omega) htop fun i hi' => ?_
        have := hmono i ((lo + hi) / 2) (by omega) (by omega)
        omega
    · have : lo = hi := by omega
      subst this
      exact ⟨Nat.le_refl _, htop, hlow⟩

/-- Where the entry before m differs, the walk back does not move (90_conflicts.md C5). -/
theorem walkBack_eq {cum : Table 18} {m : Nat}
    (h : ∀ i, i + 1 = m → readEntry cum i ≠ readEntry cum m) : walkBack cum m = m := by
  cases m with
  | zero => rfl
  | succ m =>
    unfold walkBack
    exact if_neg (h m rfl)

end Sys2Proof.Machine
end

