-- ==== Sys2Proof/Laws/PerInstr.lean ====
section
/-! SUPPORT. A fact about every command as syntax, one lemma per constructor: its encoding is legal by
30_encoding.md R71, R72 and R77 as WellFormed.lean reads them (the encoder is written from R76). -/

/-- The four words of the command are a legal encoding. -/
def Sys2Proof.Laws.EncodedLegal.Statement (i : Sys2Proof.Instr) : Prop :=
  (Sys2Proof.encode i).wellFormed = true

namespace Sys2Proof

/-- A command without immediate is legal when its opcode is assigned. -/
theorem Laws.legal_of_opcode {op : Byte} (a b c : Word)
    (h : (!(op.toNat == 0x03 || (0x08 ≤ op.toNat && op.toNat ≤ 0x0F) ||
      (0x15 ≤ op.toNat && op.toNat ≤ 0x1F) || (0x24 ≤ op.toNat && op.toNat ≤ 0x2F) ||
      0x35 ≤ op.toNat)) = true) :
    Command.wellFormed ⟨commandWord op 0, a, b, c⟩ = true := by
  simp only [Command.wellFormed, Command.opcodeAssigned, Command.zeroFieldClear,
    Command.immediateAllowed, opcode_mk, zeroField_mk, imm8_mk, h]
  simp

/-- A command with an immediate is legal when its opcode is assigned and of format I. -/
theorem Laws.legal_of_opcode_imm {op : Byte} (imm : Byte)
    (h : (!(op.toNat == 0x03 || (0x08 ≤ op.toNat && op.toNat ≤ 0x0F) ||
      (0x15 ≤ op.toNat && op.toNat ≤ 0x1F) || (0x24 ≤ op.toNat && op.toNat ≤ 0x2F) ||
      0x35 ≤ op.toNat)) = true)
    (hi : [0x02, 0x04, 0x05, 0x06, 0x07, 0x11, 0x22].contains op.toNat = true) :
    Command.wellFormed (encodeI op imm) = true := by
  simp only [encodeI, Command.wellFormed, Command.opcodeAssigned, Command.zeroFieldClear,
    Command.immediateAllowed, Command.hasImmediate, opcode_mk, zeroField_mk, imm8_mk, h, hi]
  simp

theorem Laws.EncodedLegal.nop : Laws.EncodedLegal.Statement .nop :=
  Laws.legal_of_opcode _ _ _ rfl

theorem Laws.EncodedLegal.sreset : Laws.EncodedLegal.Statement .sreset :=
  Laws.legal_of_opcode _ _ _ rfl

theorem Laws.EncodedLegal.rdReg (n : Byte) : Laws.EncodedLegal.Statement (.rdReg n) :=
  Laws.legal_of_opcode_imm n rfl rfl

theorem Laws.EncodedLegal.rdEfreq (n : Byte) : Laws.EncodedLegal.Statement (.rdEfreq n) :=
  Laws.legal_of_opcode_imm n rfl rfl

theorem Laws.EncodedLegal.rdEcum (n : Byte) : Laws.EncodedLegal.Statement (.rdEcum n) :=
  Laws.legal_of_opcode_imm n rfl rfl

theorem Laws.EncodedLegal.rdDfreq (n : Byte) : Laws.EncodedLegal.Statement (.rdDfreq n) :=
  Laws.legal_of_opcode_imm n rfl rfl

theorem Laws.EncodedLegal.rdDcum (n : Byte) : Laws.EncodedLegal.Statement (.rdDcum n) :=
  Laws.legal_of_opcode_imm n rfl rfl

theorem Laws.EncodedLegal.mbClear : Laws.EncodedLegal.Statement .mbClear :=
  Laws.legal_of_opcode _ _ _ rfl

theorem Laws.EncodedLegal.mbCount (n : Byte) : Laws.EncodedLegal.Statement (.mbCount n) :=
  Laws.legal_of_opcode_imm n rfl rfl

theorem Laws.EncodedLegal.mbFinal : Laws.EncodedLegal.Statement .mbFinal :=
  Laws.legal_of_opcode _ _ _ rfl

theorem Laws.EncodedLegal.hdrWrite : Laws.EncodedLegal.Statement .hdrWrite :=
  Laws.legal_of_opcode _ _ _ rfl

theorem Laws.EncodedLegal.hdrRead : Laws.EncodedLegal.Statement .hdrRead :=
  Laws.legal_of_opcode _ _ _ rfl

theorem Laws.EncodedLegal.encInit : Laws.EncodedLegal.Statement .encInit :=
  Laws.legal_of_opcode _ _ _ rfl

theorem Laws.EncodedLegal.encEncode (x y z : Word) : Laws.EncodedLegal.Statement (.encEncode x y z) :=
  Laws.legal_of_opcode _ _ _ rfl

theorem Laws.EncodedLegal.encSym (n : Byte) : Laws.EncodedLegal.Statement (.encSym n) :=
  Laws.legal_of_opcode_imm n rfl rfl

theorem Laws.EncodedLegal.encFlush : Laws.EncodedLegal.Statement .encFlush :=
  Laws.legal_of_opcode _ _ _ rfl

theorem Laws.EncodedLegal.decInit : Laws.EncodedLegal.Statement .decInit :=
  Laws.legal_of_opcode _ _ _ rfl

theorem Laws.EncodedLegal.decGetfreq (x : Word) : Laws.EncodedLegal.Statement (.decGetfreq x) :=
  Laws.legal_of_opcode _ _ _ rfl

theorem Laws.EncodedLegal.decDecode (x y z : Word) : Laws.EncodedLegal.Statement (.decDecode x y z) :=
  Laws.legal_of_opcode _ _ _ rfl

theorem Laws.EncodedLegal.decLookup (x : Word) : Laws.EncodedLegal.Statement (.decLookup x) :=
  Laws.legal_of_opcode _ _ _ rfl

theorem Laws.EncodedLegal.decSym : Laws.EncodedLegal.Statement .decSym :=
  Laws.legal_of_opcode _ _ _ rfl

end Sys2Proof
end

