-- ==== Sys2Proof/Tests/Slice0.lean ====
section
/-! SUPPORT. The model's own tests: ill-formed words, the decoding of words written out from the spec,
one or two small steps per command with the results of 95_test_vectors.md (the section stands in each
comment), and for every statement with hypotheses a witness that meets them. -/

namespace Sys2Proof.Tests

open Sys2Proof Sys2Proof.Machine

-- One proof at a time: every waiting thread of Lean reserves its whole stack.
set_option Elab.async false

/-! ### Helpers -/

/-- The outcome is a next state that passes a check. -/
def landsIn (o : Host.Outcome State Fault Refusal) (p : State → Bool) : Bool :=
  match o with
  | .next t => p t
  | .fault _ => false
  | .refused _ => false

theorem exists_of_landsIn {o : Host.Outcome State Fault Refusal} {p : State → Bool}
    (h : landsIn o p = true) : ∃ t, o = .next t ∧ p t = true := by
  cases o with
  | next t => exact ⟨t, rfl, h⟩
  | fault _ => cases h
  | refused _ => cases h

theorem next_of_landsIn {o : Host.Outcome State Fault Refusal} {p : State → Bool}
    (h : landsIn o p = true) : ∃ t, o = .next t :=
  let ⟨t, ht, _⟩ := exists_of_landsIn h
  ⟨t, ht⟩

/-- The last response given. -/
def lastIs (t : State) (status : BitVec 8) (d0 d1 d2 : Word) : Bool :=
  t.responses.getLast? == some ⟨status, d0, d1, d2⟩

/-- The bits of a byte string, each most significant bit first (95_test_vectors.md, conventions). -/
def bitsOf (bytes : List Nat) : List Bool := bytes.flatMap (bitsMsbFirst 8)

/-- The ABRACADABRA frequency table (95_test_vectors.md, conventions). -/
def abraFreq : Table 10 :=
  tableOf fun i =>
    if i = 0x41 then 5 else if i = 0x42 ∨ i = 0x52 then 2
    else if i = 0x43 ∨ i = 0x44 then 1 else 0

/-- The ABRACADABRA cumulative table (95_test_vectors.md, conventions). -/
def abraCum : Table 18 :=
  tableOf fun i =>
    if i < 0x41 then 0 else if i = 0x41 then 5 else if i = 0x42 then 7 else if i = 0x43 then 8
    else if i < 0x52 then 9 else 11

/-- Bank E holds the ABRACADABRA model. -/
def abraE : State :=
  { State.reset with est := .final, efreq := abraFreq, ecum := abraCum, eTotal := 12, runtot := 11 }

/-- Bank D holds the ABRACADABRA model and the decoder is primed with 3A86FECC. -/
def abraD : State :=
  { State.reset with
    dst := .final, dfreq := abraFreq, dcum := abraCum, dTotal := 12, dcs := .ready,
    dCode := 0x3A86FECC }

/-- A histogram in progress with the counters of a function. -/
def counting (f : Nat → BitVec 10) (total : BitVec 15) : State :=
  { State.reset with est := .counting, efreq := tableOf f, runtot := total }

/-- The state before vector M1 of section 2.2. -/
def stateM1 : State :=
  counting (fun i => if i = 0x41 then 1022 else if i = 0x42 then 1 else if i = 0x43 then 3 else 0)
    1026

/-- The state before vector M4 of section 2.2. -/
def stateM4 : State :=
  counting (fun i => if i < 0x10 then 1022 else if i = 0x10 then 31 else 0) 16383

/-- The encoder's registers at a given interval. -/
def encAt (low range : Word) : State := { State.reset with eLow := low, eRange := range }

/-- A decoder pending with a given divided interval and total. -/
def decAt (low range : Word) (tot : BitVec 16) (bits : List Bool) : State :=
  { State.reset with dcs := .pending, dLow := low, dRange := range, dTot := tot, src := bits }

/-- A faulted block. -/
def hurt : State := { State.reset with fcause := some .srcUnderflow, finfo := 0x34000000 }

/-- A block at whose command port a command stands. -/
def presented (c : Command) : State := { State.reset with inputs := [.command c] }

/-- Bank E holds the model of a counted "ABRACADABRA", built. -/
def builtE : State :=
  { State.reset with
    est := .final, efreq := abraFreq, ecum := (buildCum abraFreq).1, eTotal := (buildCum abraFreq).2 }

/-- Bank D holds the same model, and the decoder is primed with 3A86FECC. -/
def builtD : State :=
  { State.reset with
    dst := .final, dfreq := abraFreq, dcum := (buildCum abraFreq).1, dTotal := (buildCum abraFreq).2,
    dcs := .ready, dCode := 0x3A86FECC }

theorem builtE_inv : Inv builtE := by
  refine ⟨by decide, fun _ => ⟨⟨by decide +kernel, by decide, fun _ => ⟨modelOk_buildCum _, ?_, ?_⟩⟩,
    by decide, by decide, by decide⟩⟩
  · decide +kernel
  · decide +kernel

theorem builtD_inv : Inv builtD := by
  refine ⟨by decide, fun _ => ⟨⟨by decide +kernel, by decide, by decide⟩,
    fun _ => by decide +kernel, by decide, fun _ => ⟨modelOk_buildCum _, ?_⟩⟩⟩
  decide +kernel

theorem stateM1_inv : Inv stateM1 := by
  refine ⟨by decide, fun _ => ⟨⟨by decide +kernel, fun _ => ?_, by decide⟩, by decide, by decide,
    by decide⟩⟩
  decide +kernel

theorem inv_setInputs {s : State} (h : Inv s) (l : List HostEvent) : Inv (s.setInputs l) := h

/-- Before an MB_COUNT, with the unreadable ECUM as given. -/
def loose (x : BitVec 18) : State :=
  { stateM1 with ecum := Vector.replicate 256 x, inputs := [.command ⟨0x11000041, 0, 0, 0⟩] }

/-! ### Well-formedness: a command word that fails each check, and the check refuses it -/

/-- An unassigned opcode (30_encoding.md R77). -/
theorem test_wellFormed_opcode :
    Command.opcodeAssigned ⟨0x03000000, 0, 0, 0⟩ = false ∧
    Command.opcodeAssigned ⟨0x0F000000, 0, 0, 0⟩ = false ∧
    Command.opcodeAssigned ⟨0x35000000, 0, 0, 0⟩ = false ∧
    Command.wellFormed ⟨0x03000000, 0, 0, 0⟩ = false := by decide

/-- A non-zero reserved field (30_encoding.md R71). -/
theorem test_wellFormed_zeroField :
    Command.zeroFieldClear ⟨0x11010041, 0, 0, 0⟩ = false ∧
    Command.wellFormed ⟨0x11010041, 0, 0, 0⟩ = false := by decide

/-- A stray immediate (30_encoding.md R71). -/
theorem test_wellFormed_immediate :
    Command.immediateAllowed ⟨0x13000001, 0, 0, 0⟩ = false ∧
    Command.immediateAllowed ⟨0x110000FF, 0, 0, 0⟩ = true ∧
    Command.wellFormed ⟨0x13000001, 0, 0, 0⟩ = false := by decide

/-! ### Decoding: words written out from 30_encoding.md R71 and R76 -/

/-- System family, RD_REG bit by bit. -/
theorem test_decode_system :
    decode ⟨0x00000000, 0, 0, 0⟩ = .ok .nop ∧
    decode ⟨0x01000000, 0, 0, 0⟩ = .ok .sreset ∧
    decode ⟨0b00000010000000000000000000010001, 0, 0, 0⟩ = .ok (.rdReg 0x11) ∧
    decode ⟨0x04000041, 0, 0, 0⟩ = .ok (.rdEfreq 0x41) ∧
    decode ⟨0x05000042, 0, 0, 0⟩ = .ok (.rdEcum 0x42) ∧
    decode ⟨0x06000080, 0, 0, 0⟩ = .ok (.rdDfreq 0x80) ∧
    decode ⟨0x070000FF, 0, 0, 0⟩ = .ok (.rdDcum 0xFF) := by decide

/-- Model and header family, MB_COUNT bit by bit. -/
theorem test_decode_model :
    decode ⟨0x10000000, 0, 0, 0⟩ = .ok .mbClear ∧
    decode ⟨0b00010001000000000000000001000001, 0, 0, 0⟩ = .ok (.mbCount 0x41) ∧
    decode ⟨0x12000000, 0, 0, 0⟩ = .ok .mbFinal ∧
    decode ⟨0x13000000, 0, 0, 0⟩ = .ok .hdrWrite ∧
    decode ⟨0x14000000, 0, 0, 0⟩ = .ok .hdrRead := by decide

/-- Encoder family, ENC_ENCODE as 30_encoding.md R80 prints it. -/
theorem test_decode_encoder :
    decode ⟨0x20000000, 0, 0, 0⟩ = .ok .encInit ∧
    decode ⟨0b00100001000000000000000000000000, 5, 2, 0xC⟩ = .ok (.encEncode 5 2 12) ∧
    decode ⟨0x220000FF, 0, 0, 0⟩ = .ok (.encSym 0xFF) ∧
    decode ⟨0x23000000, 0, 0, 0⟩ = .ok .encFlush := by decide

/-- Decoder family, DEC_DECODE bit by bit. -/
theorem test_decode_decoder :
    decode ⟨0x30000000, 0, 0, 0⟩ = .ok .decInit ∧
    decode ⟨0x31000000, 12, 0, 0⟩ = .ok (.decGetfreq 12) ∧
    decode ⟨0b00110010000000000000000000000000, 0, 5, 12⟩ = .ok (.decDecode 0 5 12) ∧
    decode ⟨0x33000000, 8, 0, 0⟩ = .ok (.decLookup 8) ∧
    decode ⟨0x34000000, 0, 0, 0⟩ = .ok .decSym := by decide

/-- Section 2.1: the illegal words, each rejected by name; unused operand words are ignored. -/
theorem test_decode_rejects :
    decode ⟨0x03000000, 0, 0, 0⟩ = .error .unassignedOpcode ∧
    decode ⟨0x10000100, 0, 0, 0⟩ = .error .reservedField ∧
    decode ⟨0x3100000C, 0, 0, 0⟩ = .error .strayImmediate ∧
    decode ⟨0x00000001, 0, 0, 0⟩ = .error .strayImmediate ∧
    decode ⟨0x00000000, 0xFFFFFFFF, 0, 0⟩ = .ok .nop := by decide

/-- The host's table words: 32 bits, or 128 with the operand words counted on. -/
theorem test_tableWord :
    decodeTableWord 32 0x11000041 = some (.mbCount 0x41) ∧
    decodeTableWord 128 (0x21000000 + 5 * 2 ^ 32 + 2 * 2 ^ 64 + 12 * 2 ^ 96) =
      some (.encEncode 5 2 12) ∧
    decodeTableWord 32 0x03000000 = none := by decide

/-- withFetchWord puts the command where the next step takes it. -/
theorem test_withFetchWord :
    landsIn (step (State.reset.withFetchWord 32 0x02000011))
      (fun t => lastIs t 0 0xFFFFFFFF 0 0) = true := by decide +kernel

/-! ### System commands (section 2.1 and program P5) -/

theorem test_nop : landsIn (exec .nop hurt) (fun t => lastIs t 0 0 0 0) = true := by decide +kernel

/-- R92's example: after a fault, FCAUSE and the registers are at their reset values, OUT is kept. -/
theorem test_sreset :
    landsIn (exec .sreset { hurt with eLow := 5, dcs := .ready, out := [true], srcpos := 3 })
      (fun t => t.fcause == none && t.finfo == 0 && t.eLow == 0 && t.dcs == .uninit &&
        t.out == [true] && t.srcpos == 3 && lastIs t 0 0 0 0) = true := by decide +kernel

/-- P5 rows 14 to 16: STATUS, FCAUSE and FINFO while faulted. -/
theorem test_rdReg_faulted :
    landsIn (exec (.rdReg 0x00) { hurt with dcs := .pending, dst := .final })
      (fun t => lastIs t 0 0xA8 0 0) = true ∧
    landsIn (exec (.rdReg 0x02) hurt) (fun t => lastIs t 0 0x34000000 0 0) = true := by
  decide +kernel

/-- Section 2.1 and P5 row 21: a reserved number faults, or is refused while faulted. -/
theorem test_rdReg_reserved :
    landsIn (exec (.rdReg 0x12) State.reset)
      (fun t => t.fcause == some .illegalCmd && t.finfo == 0x02000012 && lastIs t 1 0 0 0) = true ∧
    landsIn (exec (.rdReg 0x7F) hurt)
      (fun t => t.finfo == 0x34000000 && lastIs t 0x84 0 0 0) = true := by decide +kernel

theorem test_rdEfreq :
    landsIn (exec (.rdEfreq 0x41) abraE) (fun t => lastIs t 0 5 0 0) = true ∧
    landsIn (exec (.rdEfreq 0x41) State.reset)
      (fun t => t.finfo == 0x04000041 && lastIs t 2 0 0 0) = true := by decide +kernel

theorem test_rdEcum :
    landsIn (exec (.rdEcum 0x42) abraE) (fun t => lastIs t 0 7 0 0) = true := by decide +kernel

theorem test_rdDfreq :
    landsIn (exec (.rdDfreq 0x52) abraD) (fun t => lastIs t 0 2 0 0) = true := by decide +kernel

/-- P5 row 26. -/
theorem test_rdDcum :
    landsIn (exec (.rdDcum 0xFF) abraD) (fun t => lastIs t 0 11 0 0) = true ∧
    landsIn (exec (.rdDcum 0x41) State.reset)
      (fun t => t.finfo == 0x07000041 && lastIs t 2 0 0 0) = true := by decide +kernel

/-! ### Model builder and header (section 2.2) -/

/-- R101's example, and M10. -/
theorem test_mbClear :
    landsIn (exec .mbClear stateM1)
      (fun t => readEntry t.efreq 0x41 == 0 && t.runtot == 0 && statusWord t == 1) = true ∧
    landsIn (exec .mbClear { abraE with eDirty := true }) (fun t => lastIs t 2 0 0 0) = true := by
  decide +kernel

/-- M1: a rescale by the counter. -/
theorem test_mbCount_cap :
    landsIn (exec (.mbCount 0x41) stateM1)
      (fun t => readEntry t.efreq 0x41 == 511 && readEntry t.efreq 0x42 == 1 &&
        readEntry t.efreq 0x43 == 1 && t.runtot == 513 && lastIs t 0 1 513 0) = true := by
  decide +kernel

/-- M4: a rescale by the total. -/
theorem test_mbCount_ceiling :
    landsIn (exec (.mbCount 0x11) stateM4)
      (fun t => readEntry t.efreq 0x0F == 511 && readEntry t.efreq 0x10 == 15 &&
        readEntry t.efreq 0x11 == 1 && lastIs t 0 1 8192 0) = true := by decide +kernel

/-- R104's example. -/
theorem test_mbFinal :
    landsIn (exec .mbFinal { abraE with est := .counting, ecum := Vector.replicate 256 0, eTotal := 0 })
      (fun t => readEntry t.ecum 0x42 == 7 && readEntry t.ecum 0x51 == 9 && t.est == .final &&
        lastIs t 0 12 0 0) = true := by
  decide +kernel

/-- H1: the first four entries and the last three, in their places in the header. -/
theorem test_hdrWrite :
    (pushEntries [1, 682, 0, 0] State.reset).out.take 32 = bitsOf [0x00, 0x6A, 0xA0, 0x00] ∧
    (pushEntries [0, 0, 1022] State.reset).out.drop 6 = bitsOf [0x00, 0x03, 0xFE] ∧
    landsIn (exec .hdrWrite { abraE with eDirty := true })
      (fun t => t.out == [] && t.finfo == 0x13000000 && lastIs t 2 0 0 0) = true := by decide +kernel

/-- R192: entries before the failing one are written, and the failing Pop takes nothing. -/
theorem test_hdrRead :
    landsIn (exec .hdrRead { abraD with src := (bitsOf [0x00, 0x6A, 0xA0, 0x00]).take 29 })
      (fun t => readEntry t.dfreq 0 == 1 && readEntry t.dfreq 1 == 682 &&
        readEntry t.dfreq 0x41 == 5 && t.srcpos == 20 && t.dst == .invalid && t.dcs == .uninit &&
        t.dTotal == 12 && t.finfo == 0x14000000 && lastIs t 4 0 0 0) = true := by decide +kernel

/-! ### Encoder (section 2.3) -/

/-- R121's example. -/
theorem test_encInit :
    landsIn (exec .encInit { State.reset with
        eLow := 0x86FECCAB, eRange := 0x0002B5A8, eDirty := true })
      (fun t => t.eLow == 0 && t.eRange == 0xFFFFFFFF && t.eDirty == false) = true := by
  decide +kernel

/-- The rows "clamp" and "stable, clamp" of section 2.3. -/
theorem test_encEncode :
    landsIn (exec (.encEncode 41984 1 65535) (encAt 0x55555555 0x55555555))
      (fun t => t.eLow == 0xFFC95500 && t.eRange == 0x0036AB00 && t.out == bitsOf [0x8B] &&
        t.eDirty && lastIs t 0 1 0 0) = true ∧
    landsIn (exec (.encEncode 6586 1 40000) (encAt 0x69FFFF00 0x00800000))
      (fun t => t.eLow == 0xFFDA0000 && t.eRange == 0x00260000 &&
        t.out == bitsOf [0x6A, 0x14]) = true := by decide +kernel

/-- The sum start + width does not wrap. -/
theorem test_encEncode_contract :
    landsIn (exec (.encEncode 0xFFFFFFFF 2 10) State.reset)
      (fun t => t.eDirty == false && t.eRange == 0xFFFFFFFF && t.finfo == 0x21000000 &&
        lastIs t 3 0 0 0) = true ∧
    landsIn (exec (.encEncode 0 10 10) State.reset)
      (fun t => t.eRange == 0xFFFFFFFA && lastIs t 0 0 0 0) = true := by decide +kernel

/-- R123's example, and a symbol of zero frequency. -/
theorem test_encSym :
    landsIn (exec (.encSym 0x41) abraE)
      (fun t => t.eLow == 0 && t.eRange == 0x6AAAAAA9 && t.eDirty && lastIs t 0 0 0 5) = true ∧
    landsIn (exec (.encSym 0x45) abraE)
      (fun t => t.eDirty == false && t.finfo == 0x22000045 && lastIs t 3 0 0 0) = true := by
  decide +kernel

/-- R124's example. -/
theorem test_encFlush :
    landsIn (exec .encFlush { encAt 0xFECCAB00 5 with eDirty := true })
      (fun t => t.out == bitsOf [0xFE, 0xCC, 0xAB, 0x00] && t.eRange == 0xFFFFFFFF &&
        t.eDirty == false && lastIs t 0 4 0 0) = true := by decide +kernel

/-- Section 2.3: the counter-example of 90_conflicts.md C1, and the clamp. -/
theorem test_renormCond :
    renormCond 0x00010000 0x00000100 = (true, 0x00000100) ∧
    renormCond 0x12FF0001 0x0000FFFF = (true, 0x0000FFFF) ∧
    renormCond 0x12FFFF00 0x00000200 = (true, 0x00000100) ∧
    renormCond 0xFFFF0000 0x00010000 = (false, 0x00010000) := by decide +kernel

/-! ### Decoder (section 2.5) -/

/-- L4. -/
theorem test_decInit :
    landsIn (exec .decInit { State.reset with src := bitsOf [0x3A, 0x86, 0xFE, 0xCC] })
      (fun t => t.dCode == 0x3A86FECC && t.dcs == .ready && t.srcpos == 32 &&
        lastIs t 0 0x3A86FECC 0 0) = true ∧
    landsIn (exec .decInit { State.reset with src := bitsOf [0x3A, 0x86, 0xFE] })
      (fun t => t.dCode == 0x003A86FE && t.dcs == .uninit && t.srcpos == 24 &&
        lastIs t 4 0 0 0) = true := by decide +kernel

/-- L5. -/
theorem test_decGetfreq :
    landsIn (exec (.decGetfreq 12) abraD)
      (fun t => t.dRange == 0x15555555 && t.dTot == 12 && t.dcs == .pending &&
        lastIs t 0 2 0 0) = true ∧
    landsIn (exec (.decGetfreq 65536) abraD) (fun t => lastIs t 3 0 0 0) = true := by
  decide +kernel

/-- L5, and a total that is not D_TOT. -/
theorem test_decDecode :
    landsIn (exec (.decDecode 0 5 12) (decAt 0 0x15555555 12 []))
      (fun t => t.dLow == 0 && t.dRange == 0x6AAAAAA9 && t.dcs == .ready &&
        lastIs t 0 0 0 0) = true ∧
    landsIn (exec (.decDecode 0 5 13) (decAt 0 0x15555555 12 []))
      (fun t => t.dcs == .pending && lastIs t 3 0 0 0) = true := by decide +kernel

/-- Section 1.6, first row: an underflow leaves the narrowed interval and DCS = PENDING. -/
theorem test_decDecode_underflow :
    landsIn (exec (.decDecode 0 5 12) (decAt 0x86FECCAB 0x000039CE 12 []))
      (fun t => t.dLow == 0x86FECCAB && t.dRange == 0x00012106 && t.dcs == .pending &&
        lastIs t 4 0 0 0) = true := by decide +kernel

/-- L1: f = 8, 9 and 11. -/
theorem test_decLookup :
    landsIn (exec (.decLookup 8) abraD) (fun t => lastIs t 0 0x44 8 1) = true ∧
    landsIn (exec (.decLookup 9) abraD) (fun t => lastIs t 0 0x52 9 2) = true ∧
    landsIn (exec (.decLookup 11) abraD) (fun t => lastIs t 5 0 0 0) = true := by decide +kernel

/-- R147's example, and section 1.6, the seventh row's fault. -/
theorem test_decSym :
    landsIn (exec .decSym abraD)
      (fun t => t.dRange == 0x6AAAAAA9 && t.dCode == 0x3A86FECC && t.dcs == .ready &&
        t.dTot == 12 && lastIs t 0 0x41 0 5) = true ∧
    landsIn (exec .decSym { abraD with dCode := 0xF0000000 })
      (fun t => t.dRange == 0x15555555 && t.dcs == .pending && t.dTot == 12 && t.dLow == 0 &&
        lastIs t 5 0 0 0) = true := by decide +kernel

/-! ### Streams and the host's actions -/

/-- Push drops the bits above bit n − 1 (20_memory.md R52); Pop takes nothing when it fails (R53). -/
theorem test_push_pop :
    (push 8 0x3A5 State.reset).out = [true, false, true, false, false, true, false, true] ∧
    (match pop 10 { State.reset with src := List.replicate 9 true } with
      | .raised .srcUnderflow t => t.srcpos == 0
      | _ => false) = true := by decide +kernel

/-- An illegal command word on an unfaulted block (R183's example) and on a faulted one. -/
theorem test_illegal :
    landsIn (step (presented ⟨0x03000000, 0, 0, 0⟩))
      (fun t => t.fcause == some .illegalCmd && t.finfo == 0x03000000 && lastIs t 1 0 0 0) = true ∧
    landsIn (step { hurt with inputs := [.command ⟨0x03000000, 0, 0, 0⟩] })
      (fun t => t.finfo == 0x34000000 && lastIs t 0x84 0 0 0) = true := by decide +kernel

/-- `rst`, and `rst` that cuts a flush short after one of its four bytes (log 6). -/
theorem test_rst :
    landsIn (step { hurt with inputs := [.rst], eLow := 7 })
      (fun t => t.fcause == none && t.eLow == 0 && t.responses == []) = true ∧
    landsIn (step { encAt 0xFECCAB00 5 with
        eDirty := true, inputs := [.rstDuring ⟨0x23000000, 0, 0, 0⟩ 1] })
      (fun t => t.out == bitsOf [0xFE] && t.eDirty == false && t.responses == []) = true := by
  decide +kernel

/-! ### Witnesses: for each statement with hypotheses, states and operands that meet them -/

theorem witness_DecodedWordIsTheEncodedWord :
    decode ⟨0x11000041, 0, 0, 0⟩ = .ok (.mbCount 0x41) := by decide

theorem witness_DecodeAcceptsExactlyTheTable :
    ∃ r ∈ opcodeTable, ∃ q ∈ opcodeTable,
      r.matchesWord 0x11000041 = true ∧ q.matchesWord 0x11000041 = true :=
  ⟨⟨"MB_COUNT", .i, 0x11⟩, by decide, ⟨"MB_COUNT", .i, 0x11⟩, by decide, by decide⟩

/-- Both clauses, at the opcodes beside the ones that use operand words. -/
theorem witness_UnusedOperandWordsAreIgnored :
    (∀ op ∈ [0x00, 0x20, 0x22, 0x30, 0x34, 0xFF],
      (BitVec.ofNat 32 (op * 2 ^ 24)).toNat / 2 ^ 24 ∉ [0x21, 0x31, 0x32, 0x33]) ∧
    ∀ op ∈ [0x31, 0x33], (BitVec.ofNat 32 (op * 2 ^ 24)).toNat / 2 ^ 24 ∈ [0x31, 0x33] := by decide

theorem witness_StepRunsTheDecodedCommand :
    (presented ⟨0x02000011, 0, 0, 0⟩).inputs = .command ⟨0x02000011, 0, 0, 0⟩ :: [] ∧
    decode ⟨0x02000011, 0, 0, 0⟩ = .ok (.rdReg 0x11) := by decide

theorem witness_IdleAndFreshStreamSteps :
    State.reset.inputs = [] ∧
    { State.reset with inputs := [.newSource [true]] }.inputs = .newSource [true] :: [] ∧
    { State.reset with inputs := [.newSink, .rst] }.inputs = .newSink :: [.rst] := by decide

/-- Each of the three kinds of response. -/
theorem witness_EachCommandGivesOneResponse :
    (∃ t, exec .nop State.reset = .next t) ∧
    (∃ t, exec (.encEncode 0 0 10) State.reset = .next t ∧ (t.fcause == some .contract) = true) ∧
    ∃ t, exec .encInit hurt = .next t ∧ lastIs t 0x84 0 0 0 = true :=
  ⟨next_of_landsIn (p := fun _ => true) (by decide +kernel), exists_of_landsIn (by decide +kernel),
    exists_of_landsIn (by decide +kernel)⟩

theorem witness_RstPutsRegistersAtResetValues :
    { hurt with inputs := [.rst] }.inputs = .rst :: [] := by decide

/-- A transfer of 10 bits and one of 8. -/
theorem witness_RstCutsACommandShort :
    (∃ full, step { builtE with inputs := [.command ⟨0x13000000, 0, 0, 0⟩] } = .next full) ∧
    ∃ full, step { builtE with
      eDirty := true, inputs := [.command ⟨0x23000000, 0, 0, 0⟩] } = .next full :=
  ⟨next_of_landsIn (p := fun _ => true) (by decide +kernel),
    next_of_landsIn (p := fun _ => true) (by decide +kernel)⟩

theorem witness_SresetRestoresTheResetState :
    Instr.nop ≠ .sreset ∧ hurt.fcause = some .srcUnderflow ∧ ∃ t, exec .nop hurt = .next t :=
  ⟨by decide, by decide, next_of_landsIn (p := fun _ => true) (by decide +kernel)⟩

/-- The reserved numbers beside the listed ones; an unfaulted and a faulted block. -/
theorem witness_RdRegReadsTheNumberedRegister :
    (∀ n ∈ [0x07, 0x0F, 0x12, 0x1F, 0x23, 0xFF], (BitVec.ofNat 8 n).toNat ∉
      [0x00, 0x01, 0x02, 0x03, 0x04, 0x05, 0x06, 0x10, 0x11, 0x20, 0x21, 0x22]) ∧
    State.reset.fcause = none ∧ hurt.fcause = some .srcUnderflow := by decide

/-- Readable, unreadable and faulted for each bank. -/
theorem witness_TableReadsAnswerTheEntry :
    stateM1.est ≠ .invalid ∧ builtE.est = .final ∧ builtD.dst = .final ∧
    (State.reset.fcause = none ∧ State.reset.est = .invalid ∧ State.reset.dst ≠ .final) ∧
    (stateM1.fcause = none ∧ stateM1.est ≠ .final) ∧
    hurt.fcause = some .srcUnderflow ∧ hurt.est = .invalid ∧ hurt.dst ≠ .final := by decide

theorem witness_MbClearStartsAHistogram :
    (builtE.fcause = none ∧ builtE.eDirty = false) ∧
    { builtE with eDirty := true }.fcause = none ∧ { builtE with eDirty := true }.eDirty = true := by
  decide

/-- Just below each trigger (vectors M2 and M3). -/
theorem witness_MbCountIncrementsOneCounter :
    ∀ s ∈ [counting (fun i => if i = 0x41 then 1021 else 0) 1021,
        counting (fun i => if i < 0x10 then 1022 else if i = 0x10 then 30 else 0) 16382],
      s.fcause = none ∧ s.est = .counting ∧
      (readEntry s.efreq (0x41 : Byte).toNat).toNat + 1 < 1023 ∧ s.runtot.toNat + 1 < 16384 := by
  decide +kernel

/-- At each trigger alone (vectors M1 and M4). -/
theorem witness_MbCountRescalesAtATrigger :
    (stateM1.fcause = none ∧ stateM1.est = .counting ∧
      1023 ≤ (readEntry stateM1.efreq (0x41 : Byte).toNat).toNat + 1) ∧
    stateM4.fcause = none ∧ stateM4.est = .counting ∧ 16384 ≤ stateM4.runtot.toNat + 1 := by
  decide +kernel

theorem witness_RescaleStarvesNoSymbolAndShrinksTheTotal :
    Inv stateM1 ∧ stateM1.fcause = none ∧ stateM1.est = .counting ∧
    1023 ≤ (readEntry stateM1.efreq (0x41 : Byte).toNat).toNat + 1 ∧
    ∃ t, exec (.mbCount 0x41) stateM1 = .next t :=
  ⟨stateM1_inv, by decide, by decide, by decide +kernel,
    next_of_landsIn (p := fun _ => true) (by decide +kernel)⟩

theorem witness_MbFinalBuildsThePrefixSums :
    (stateM1.fcause = none ∧ stateM1.est = .counting) ∧
    builtE.fcause = none ∧ builtE.est ≠ .counting := by decide

theorem witness_HdrWriteAppendsTheHeader :
    (builtE.fcause = none ∧ builtE.est = .final ∧ builtE.eDirty = false) ∧
    (stateM1.fcause = none ∧ stateM1.est ≠ .final) ∧
    { builtE with eDirty := true }.eDirty = true := by decide

/-- A source of exactly one header, and tables on both sides of the bound (vectors H2, H5). -/
theorem witness_HdrReadRebuildsTheModel :
    (State.reset.fcause = none ∧
      2560 ≤ (unread { State.reset with src := List.replicate 2560 false }).length) ∧
    prefixSum (tableOf fun i => if i < 64 then 1023 else if i = 64 then 62 else 0) 255 + 1 = 65535 ∧
    prefixSum (tableOf fun i => if i < 64 then 1023 else if i = 64 then 63 else 0) 255 + 1 = 65536 := by
  decide +kernel

/-- One bit short, and empty. -/
theorem witness_HdrReadUnderflowLeavesThePrefix :
    State.reset.fcause = none ∧ (unread State.reset).length < 2560 ∧
    (unread { State.reset with src := List.replicate 2559 false }).length < 2560 := by decide +kernel

theorem witness_HeaderReadsBackTheTables :
    ∃ (s t u : State) (bits rest : List Bool),
      Inv s ∧ s.fcause = none ∧ s.est = .final ∧ s.eDirty = false ∧ exec .hdrWrite s = .next t ∧
      t.out = s.out ++ bits ∧ u.fcause = none ∧ unread u = bits ++ rest :=
  let ⟨t, ht⟩ := next_of_landsIn (o := exec .hdrWrite builtE) (p := fun _ => true) (by decide +kernel)
  ⟨builtE, t, { State.reset with src := t.out }, t.out, [], builtE_inv, rfl, rfl, rfl, ht, rfl, rfl,
    (List.append_nil _).symm⟩

theorem witness_CountedBytesHaveFrequencies :
    State.reset.fcause = none ∧ State.reset.eDirty = false ∧
    (0x41 : Byte) ∈ [(0x41 : Byte)] ∧ (0x42 : Byte) ∉ [(0x41 : Byte)] := by decide

theorem witness_EncInitConstructsTheCoder : builtE.fcause = none := by decide

/-- The smallest total, and the largest one with a range equal to it. -/
theorem witness_EncEncodeNarrowsAndRenormalises :
    ((encAt 0 0xFFFFFFFF).fcause = none ∧ 1 ≤ (1 : Word).toNat ∧ (1 : Word).toNat < 65536 ∧
      (0 : Word).toNat + (1 : Word).toNat ≤ (1 : Word).toNat ∧
      (1 : Word).toNat ≤ (encAt 0 0xFFFFFFFF).eRange.toNat) ∧
    (encAt 0 65535).fcause = none ∧ 1 ≤ (65535 : Word).toNat ∧ (65535 : Word).toNat < 65536 ∧
    (0 : Word).toNat + (65535 : Word).toNat ≤ (65535 : Word).toNat ∧
    (65535 : Word).toNat ≤ (encAt 0 65535).eRange.toNat := by decide +kernel

theorem witness_EncSymEncodesTheSymbolsTriple :
    abraE.fcause = none ∧ abraE.est = .final ∧ 7 = startOf abraE.ecum (0x43 : Byte).toNat ∧
    (readEntry abraE.ecum (0x43 : Byte).toNat).toNat = 7 + 1 ∧ 7 + 1 ≤ abraE.eTotal.toNat ∧
    abraE.eTotal.toNat < 65536 ∧ abraE.eTotal.toNat ≤ abraE.eRange.toNat := by decide +kernel

theorem witness_EncFlushEmitsLowOnce :
    builtE.fcause = none ∧ builtE.eDirty = false ∧ { builtE with eDirty := true }.eDirty = true := by
  decide

/-- Stable; unstable just below FLOOR; unstable at FLOOR. -/
theorem witness_RenormCondIsAShortCircuit :
    (0x00010000 : Word).toNat / 2 ^ 24 =
      ((0x00010000 : Word).toNat + (0x100 : Word).toNat) % 2 ^ 32 / 2 ^ 24 ∧
    ((0x12FF0001 : Word).toNat / 2 ^ 24 ≠
        ((0x12FF0001 : Word).toNat + (0xFFFF : Word).toNat) % 2 ^ 32 / 2 ^ 24 ∧
      (0xFFFF : Word).toNat < 2 ^ 16) ∧
    (0xFFFF0000 : Word).toNat / 2 ^ 24 ≠
      ((0xFFFF0000 : Word).toNat + (0x10000 : Word).toNat) % 2 ^ 32 / 2 ^ 24 ∧
    2 ^ 16 ≤ (0x10000 : Word).toNat := by decide

/-- The constructed interval, and one whose sum is 2^32. -/
theorem witness_NarrowNeverWraps :
    IntervalOk 0 0xFFFFFFFF ∧ IntervalOk 0xFFD00000 0x00300000 ∧
    checkTriple (65534 : Word).toNat (1 : Word).toNat (65535 : Word).toNat = true := by decide +kernel

theorem witness_DecInitPrimesTheCode :
    State.reset.fcause = none ∧
    32 ≤ (unread { State.reset with src := List.replicate 32 true }).length ∧
    (unread { State.reset with src := List.replicate 31 true }).length < 32 := by decide

/-- The smallest total, and the largest one with a range equal to it. -/
theorem witness_DecGetfreqDividesTheRange :
    (builtD.fcause = none ∧ builtD.dcs = .ready ∧ 1 ≤ (1 : Word).toNat ∧ (1 : Word).toNat < 65536 ∧
      (1 : Word).toNat ≤ builtD.dRange.toNat) ∧
    1 ≤ (65535 : Word).toNat ∧ (65535 : Word).toNat < 65536 ∧
    (65535 : Word).toNat ≤ { builtD with dRange := 65535 }.dRange.toNat := by decide +kernel

/-- A non-zero and a zero narrowed range; one iteration with and without its byte. -/
theorem witness_DecDecodeNarrowsAndRenormalises :
    (∀ s ∈ [decAt 0x86FECCAB 0x000039CE 12 (List.replicate 8 true), decAt 0x86FECCAB 0x39CE 12 []],
      s.fcause = none ∧ s.dcs = .pending ∧ (12 : Word).toNat = s.dTot.toNat ∧
      1 ≤ (5 : Word).toNat ∧ 1 ≤ (12 : Word).toNat ∧
      (0 : Word).toNat + (5 : Word).toNat ≤ (12 : Word).toNat ∧ s.dRange * 5 ≠ 0) ∧
    RenormCount (0x86FECCAB, 0x00012106) 1 ∧
    (unread (decAt 0x86FECCAB 0x39CE 12 [])).length < 8 * 1 ∧
    (decAt 7 0 12 [true]).dcs = .pending ∧ (decAt 7 0 12 [true]).dRange * 5 = 0 := by decide +kernel

/-- The last f with a symbol, the first without, and no table. -/
theorem witness_DecLookupFindsTheSmallestSymbol :
    builtD.fcause = none ∧ builtD.dst = .final ∧ ModelOk builtD.dfreq builtD.dcum builtD.dTotal ∧
    (10 : Word).toNat < (readEntry builtD.dcum 255).toNat ∧
    (readEntry builtD.dcum 255).toNat ≤ (11 : Word).toNat ∧ builtE.dst ≠ .final :=
  ⟨rfl, rfl, modelOk_buildCum _, by decide +kernel, by decide +kernel, by decide⟩

/-- f = 2 with a symbol, f = 11 without. -/
theorem witness_DecSymDecodesOneSymbol :
    builtD.fcause = none ∧ builtD.dcs = .ready ∧ builtD.dst = .final ∧
    ModelOk builtD.dfreq builtD.dcum builtD.dTotal ∧ builtD.dTotal.toNat < 65536 ∧
    builtD.dTotal.toNat ≤ builtD.dRange.toNat ∧
    0x15555555 = builtD.dRange.toNat / builtD.dTotal.toNat ∧
    (2 ^ 32 + builtD.dCode.toNat - builtD.dLow.toNat) % 2 ^ 32 / 0x15555555 = 2 ∧
    2 < (readEntry builtD.dcum 255).toNat ∧
    (2 ^ 32 + (0xF0000000 : Word).toNat - builtD.dLow.toNat) % 2 ^ 32 / 0x15555555 = 11 ∧
    (readEntry builtD.dcum 255).toNat ≤ 11 :=
  ⟨rfl, rfl, rfl, modelOk_buildCum _, by decide +kernel⟩

theorem witness_DecSymIsTheThreeCommandsInSequence :
    Inv builtD ∧ builtD.fcause = none ∧
    ∃ t, exec .decSym builtD = .next t ∧ (t.fcause == none) = true :=
  ⟨builtD_inv, rfl, exists_of_landsIn (by decide +kernel)⟩

/-- One state for each disjunct. -/
theorem witness_BrokenProtocolConditionsFault :
    State.reset.fcause = none ∧ State.reset.est = .invalid ∧ stateM1.est ≠ .final ∧
    State.reset.dst ≠ .final ∧ { builtE with eDirty := true }.eDirty = true ∧
    builtE.est ≠ .counting ∧ State.reset.dcs ≠ .ready ∧ builtD.dcs ≠ .pending ∧
    { builtD with dst := .invalid }.dst ≠ .final := by decide

/-- Each broken conjunct at its boundary, and a symbol of frequency 0. -/
theorem witness_BrokenContractsFaultBeforeAnyChange :
    builtE.fcause = none ∧ (0 : Word).toNat = 0 ∧ 65536 ≤ (65536 : Word).toNat ∧
    (10 : Word).toNat < (10 : Word).toNat + (1 : Word).toNat ∧
    (decAt 0 5 12 []).dcs = .pending ∧ (13 : Word).toNat ≠ (decAt 0 5 12 []).dTot.toNat ∧
    builtD.dcs = .ready ∧ builtE.est = .final ∧ ModelOk builtE.efreq builtE.ecum builtE.eTotal ∧
    readEntry builtE.efreq (0x45 : Byte).toNat = 0 :=
  ⟨rfl, rfl, by decide, by decide, rfl, by decide, rfl, rfl, modelOk_buildCum _, by decide +kernel⟩

/-- Ranges just below the totals. -/
theorem witness_ZeroQuotientsRaiseContract :
    (encAt 0 11).fcause = none ∧ checkTriple (0 : Word).toNat (1 : Word).toNat (12 : Word).toNat = true ∧
    (encAt 0 11).eRange.toNat < (12 : Word).toNat ∧
    { builtD with dRange := 11 }.dcs = .ready ∧ { builtD with dRange := 11 }.dst = .final ∧
    { builtD with dRange := 11 }.dRange.toNat < (12 : Word).toNat ∧
    { builtD with dRange := 11 }.dRange.toNat < { builtD with dRange := 11 }.dTotal.toNat := by
  decide +kernel

theorem witness_DefensiveArmsAreUnreachable :
    Inv builtD ∧ builtD.fcause = none ∧
    checkTriple (65534 : Word).toNat (1 : Word).toNat (65535 : Word).toNat = true ∧
    builtD.dcs = .ready ∧ 1 ≤ (65535 : Word).toNat ∧ (65535 : Word).toNat < 65536 :=
  ⟨builtD_inv, rfl, by decide, rfl, by decide, by decide⟩

/-- An illegal word and a reserved register number, unfaulted and faulted. -/
theorem witness_IllegalCommandsFault :
    Command.wellFormed ⟨0x03000000, 0, 0, 0⟩ = false ∧
    ((0x02000012 : Word).toNat / 256 = 0x020000 ∧ (0x02000012 : Word).toNat % 256 ∉
      [0x00, 0x01, 0x02, 0x03, 0x04, 0x05, 0x06, 0x10, 0x11, 0x20, 0x21, 0x22]) ∧
    (presented ⟨0x02000012, 0, 0, 0⟩).fcause = none ∧ hurt.fcause = some .srcUnderflow := by decide

theorem witness_FaultedBlockRefusesCommands :
    hurt.fcause = some .srcUnderflow ∧ Instr.decSym ≠ .nop ∧ Instr.decSym ≠ .sreset ∧
    (∀ n, Instr.decSym ≠ .rdReg n) ∧ (∀ n, Instr.decSym ≠ .rdEfreq n) ∧
    (∀ n, Instr.decSym ≠ .rdEcum n) ∧ (∀ n, Instr.decSym ≠ .rdDfreq n) ∧
    ∀ n, Instr.decSym ≠ .rdDcum n := by
  refine ⟨rfl, ?_, ?_, ?_, ?_, ?_, ?_, ?_⟩ <;> simp

theorem witness_FirstFaultStaysUntilReset :
    hurt.fcause = some .srcUnderflow ∧ Instr.nop ≠ .sreset ∧ (∃ t, exec .nop hurt = .next t) ∧
    ∃ t, step { hurt with inputs := [.command ⟨0, 0, 0, 0⟩] } = .next t :=
  ⟨rfl, by decide, next_of_landsIn (p := fun _ => true) (by decide +kernel),
    next_of_landsIn (p := fun _ => true) (by decide +kernel)⟩

/-- A command that is no writer of the encoder, the decoder or a table, and completes. -/
theorem witness_RegistersHaveTheirWriters :
    (∃ t, exec .nop builtE = .next t) ∧ Instr.nop ≠ .sreset ∧ Instr.nop ≠ .encInit ∧
    (∀ a b c, Instr.nop ≠ .encEncode a b c) ∧ (∀ n, Instr.nop ≠ .encSym n) ∧ Instr.nop ≠ .encFlush ∧
    Instr.nop ≠ .decInit ∧ (∀ a b c, Instr.nop ≠ .decDecode a b c) ∧ Instr.nop ≠ .decSym ∧
    (∀ a, Instr.nop ≠ .decGetfreq a) ∧ Instr.nop ≠ .hdrRead ∧ Instr.nop ≠ .mbClear ∧
    (∀ b, Instr.nop ≠ .mbCount b) ∧ Instr.nop ≠ .mbFinal ∧ Instr.nop ≠ .hdrWrite := by
  refine ⟨next_of_landsIn (p := fun _ => true) (by decide +kernel), ?_, ?_, ?_, ?_, ?_, ?_, ?_, ?_, ?_,
    ?_, ?_, ?_, ?_, ?_⟩ <;> simp

/-- Exactly enough bits, and one too few. -/
theorem witness_PopTakesTheNextBitsOrNothing :
    10 ≤ { State.reset with src := List.replicate 10 true }.src.length - 0 ∧
    { State.reset with src := List.replicate 9 true }.src.length - 0 < 10 := by decide

theorem witness_EveryStepKeepsTheInvariant :
    ∃ s t : State, Inv s ∧ step s = .next t :=
  let ⟨t, ht⟩ := next_of_landsIn (o := step (builtD.setInputs [.command ⟨0x34000000, 0, 0, 0⟩]))
    (p := fun _ => true) (by decide +kernel)
  ⟨_, t, inv_setInputs builtD_inv _, ht⟩

/-- Two states that differ in unreadable contents only. -/
theorem witness_UnspecifiedContentsAreNeverRead :
    AgreeReadable (loose 1) (loose 7) ∧ readEntry (loose 1).ecum 0 ≠ readEntry (loose 7).ecum 0 ∧
    (∃ t, step (loose 1) = .next t) ∧ ∃ t, step (loose 7) = .next t :=
  ⟨⟨rfl, fun _ => rfl, fun h => absurd h (by decide), fun h => absurd h (by decide)⟩,
    by decide +kernel, next_of_landsIn (p := fun _ => true) (by decide +kernel),
    next_of_landsIn (p := fun _ => true) (by decide +kernel)⟩

/-- One accepted triple; the decoder's source is what the encoder pushed. -/
theorem witness_DecoderRunsInLockstepWithTheEncoder :
    (∀ x ∈ [((0 : Word), (1 : Word), (1 : Word))],
      checkTriple x.1.toNat x.2.1.toNat x.2.2.toNat = true) ∧
    State.reset.fcause = none ∧ State.reset.eLow = 0 ∧ State.reset.eRange = 0xFFFFFFFF ∧
    State.reset.eDirty = false ∧
    landsIn (runSteps 2 (presenting [.encEncode 0 1 1, .encFlush] State.reset))
      (fun t => t.out == List.replicate 32 false) = true ∧
    unread { State.reset with src := List.replicate 32 false } = List.replicate 32 false ++ [] := by
  refine ⟨fun x hx => ?_, by decide +kernel⟩
  obtain rfl := List.mem_singleton.mp hx
  decide

theorem witness_EncodeMessageIsAFunctionOfItsInput :
    ([] : List Byte) = [] ∧ [(0x41 : Byte)] ≠ [] ∧ State.reset.fcause = none ∧
    State.reset.eDirty = false := by decide

/-- The empty message, which is 2560 zero bits (scenario 1), stands in the source. -/
theorem witness_DecodingAnEncodedMessageGivesItBack :
    State.reset.fcause = none ∧ State.reset.eDirty = false ∧
    unread { State.reset with src := List.replicate 2560 false } = List.replicate 2560 false ++ [] :=
  ⟨rfl, rfl, (List.append_nil _).symm⟩

end Sys2Proof.Tests
end

section
/-! The step on a queue that holds an action, and the command port on words that decode
(00_scope.md R16, 40_system.md R90). -/

namespace Sys2Proof.Machine

/-- The oldest action is taken on the block with that action off the queue. -/
theorem step_of_inputs_cons {s : State} {e : HostEvent} {rest : List HostEvent}
    (h : s.inputs = e :: rest) : step s = takeEvent e (s.setInputs rest) := by
  simp only [step, h]

theorem runWords_of_decode_ok {c : Command} {i : Instr} (h : decode c = .ok i) (s : State) :
    runWords c s = exec i s := by
  simp only [runWords, h]

/-- Settles O6: the step takes the presented command, and the command port runs what its words
decode to. -/
theorem stepRunsTheDecodedCommand : Obligations.StepRunsTheDecodedCommand := by
  intro s c i rest hin hdec
  calc step s = takeEvent (.command c) (s.setInputs rest) := step_of_inputs_cons hin
    _ = runWords c (s.setInputs rest) := rfl
    _ = exec i (s.setInputs rest) := runWords_of_decode_ok hdec _

end Sys2Proof.Machine
end

section
/-! What a command may write (10_state.md R21 to R41): the pseudocode of every command under one name,
and its frame, an equation of the state it ends in. -/

namespace Sys2Proof.Machine

/-! ### Properties of the state a piece of pseudocode ends in -/

/-- The state in which the pseudocode ends, normally or at a raise, meets `P`. -/
def Res.All {α : Type} (P : State → Prop) (r : Res α) : Prop :=
  match r with
  | .ok _ s => P s
  | .raised _ s => P s
  | .diverged => True

variable {α β : Type} {P : State → Prop}

@[simp] theorem Res.all_ok (a : α) (s : State) : (Res.ok a s).All P ↔ P s := Iff.rfl

/-- What both parts of a sequence keep, the sequence keeps. -/
theorem Res.All.bind {r : Res α} {f : α → State → Res β} (hr : r.All P)
    (hf : ∀ a u, P u → (f a u).All P) : (r.bind f).All P := by
  cases r with
  | ok a u => exact hf a u hr
  | raised x u => exact hr
  | diverged => trivial

theorem Res.All.mono {Q : State → Prop} {r : Res α} (hr : r.All P) (h : ∀ u, P u → Q u) :
    r.All Q := by
  cases r with
  | ok a u => exact h u hr
  | raised x u => exact h u hr
  | diverged => trivial

/-! ### The procedures keep what their writes keep -/

/-- The writes the decoder's procedures are made of keep `P`. -/
structure KeptByDecoder (P : State → Prop) : Prop where
  advance : ∀ u, 8 ≤ bitsLeft u → P u → P (u.advance 8)
  setDec : ∀ u low range code, P u → P (u.setDec low range code)
  setDcs : ∀ u x, P u → P (u.setDcs x)

theorem pop_all {n : Nat} {s : State} (hadv : n ≤ bitsLeft s → P s → P (s.advance n)) (h : P s) :
    (pop n s).All P := by
  rcases pop_cases n s with ⟨-, hp⟩ | ⟨hle, hp⟩
  · rw [hp]
    exact h
  · rw [hp]
    exact hadv hle h

theorem KeptByDecoder.pop {s : State} (hP : KeptByDecoder P) (h : P s) : (pop 8 s).All P :=
  pop_all (hP.advance s) h

theorem primeCode_all (hadv : ∀ u, 8 ≤ bitsLeft u → P u → P (u.advance 8))
    (hcode : ∀ u code, P u → P (u.setDec u.dLow u.dRange code)) (k : Nat) {s : State} (h : P s) :
    (primeCode k s).All P := by
  induction k generalizing s with
  | zero => exact h
  | succ k ih => exact (pop_all (hadv s) h).bind fun _ u hu => ih (hcode u _ hu)

theorem KeptByDecoder.primeDecoder (hP : KeptByDecoder P) {s : State} (h : P s) :
    (primeDecoder s).All P :=
  (primeCode_all hP.advance (fun u _ => hP.setDec u _ _ _) 4
    (hP.setDec _ _ _ _ (hP.setDcs s _ h))).bind fun _ u hu => hP.setDcs u _ hu

theorem KeptByDecoder.renormD (hP : KeptByDecoder P) (fuel n : Nat) {s : State} (h : P s) :
    (renormD fuel n s).All P := by
  induction fuel generalizing n s with
  | zero => trivial
  | succ fuel ih =>
    unfold Machine.renormD
    simp only
    split
    · exact (hP.pop h).bind fun _ u hu => ih _ (hP.setDec u _ _ _ hu)
    · exact h

theorem KeptByDecoder.commitTriple (hP : KeptByDecoder P) (start width : Word) {s : State} (h : P s) :
    (commitTriple start width s).All P :=
  (hP.renormD _ _ (hP.setDec s _ _ _ h)).bind fun _ u hu => hP.setDcs u _ hu

theorem getFreq_all {total : Word} {s : State} (h : P s)
    (hset : ∀ r, P (((s.setDec s.dLow r s.dCode).setTot (total.setWidth 16)).setDcs .pending)) :
    (getFreq total s).All P := by
  unfold getFreq
  simp only
  split
  · exact h
  · exact hset _

theorem lookupSymbol_all {f : Word} {s : State} (h : P s) : (lookupSymbol f s).All P := by
  unfold lookupSymbol
  split <;> exact h

/-- The writes the encoder's procedures are made of keep `P`. -/
structure KeptByEncoder (P : State → Prop) : Prop where
  appendOut : ∀ u bits, P u → P (u.appendOut bits)
  setEnc : ∀ u low range, P u → P (u.setEnc low range)
  setDirty : ∀ u d, P u → P (u.setDirty d)

theorem KeptByEncoder.renormE (hP : KeptByEncoder P) (fuel n : Nat) {s : State} (h : P s) :
    (renormE fuel n s).All P := by
  induction fuel generalizing n s with
  | zero => trivial
  | succ fuel ih =>
    unfold Machine.renormE
    simp only
    split
    · exact ih _ (hP.setEnc _ _ _ (hP.appendOut s _ h))
    · exact h

theorem KeptByEncoder.encodeTriple (hP : KeptByEncoder P) (start width total : Word) {s : State}
    (h : P s) : (encodeTriple start width total s).All P := by
  have hd := hP.setDirty s true h
  unfold Machine.encodeTriple
  simp only
  split
  · exact hd
  · exact hP.renormE _ _ (hP.setEnc _ _ _ hd)

theorem KeptByEncoder.encodeSymbol (hP : KeptByEncoder P) (sym : Byte) {s : State} (h : P s) :
    (encodeSymbol sym s).All P :=
  (hP.encodeTriple _ _ _ h).bind fun _ _ hu => hu

theorem KeptByEncoder.pushLow (hP : KeptByEncoder P) (k : Nat) {s : State} (h : P s) :
    P (pushLow k s) := by
  induction k generalizing s with
  | zero => exact h
  | succ k ih => exact ih (hP.setEnc _ _ _ (hP.appendOut s _ h))

theorem KeptByEncoder.flushCoder (hP : KeptByEncoder P) {s : State} (h : P s) :
    (flushCoder s).All P := by
  unfold Machine.flushCoder
  split
  · exact hP.setDirty _ _ (hP.setEnc _ _ _ (hP.pushLow 4 h))
  · exact h

/-- The writes HDR_READ makes once DST is INVALID and DCS is UNINIT keep `P`. -/
structure KeptByHeaderRead (P : State → Prop) : Prop where
  advance : ∀ u, 10 ≤ bitsLeft u → P u → P (u.advance 10)
  setDFreq : ∀ u t, P u → P (u.setDFreq t)
  setDCum : ∀ u m, P u → P (u.setDCum m)
  setDst : ∀ u x, P u → P (u.setDst x)

theorem KeptByHeaderRead.readEntries (hP : KeptByHeaderRead P) (k : Nat) {s : State} (h : P s) :
    (readEntries k s).All P := by
  induction k generalizing s with
  | zero => exact h
  | succ k ih => exact (pop_all (hP.advance s) h).bind fun _ u hu => ih (hP.setDFreq u _ hu)

theorem KeptByHeaderRead.readHeader (hP : KeptByHeaderRead P) {s : State}
    (h : P ((s.setDst .invalid).setDcs .uninit)) : (readHeader s).All P := by
  refine (hP.readEntries 256 h).bind fun _ u hu => ?_
  have hu' := hP.setDCum u (buildCum u.dfreq) hu
  simp only
  split
  · exact hu'
  · exact hP.setDst _ _ hu'

/-! ### The pseudocode of every command, and what it may write -/

/-- The pseudocode of a command, which `exec` dispatches (40_system.md R90). -/
def pseudocode (i : Instr) (s : State) : Res Data :=
  match i with
  | .nop => respond 0 0 0 s
  | .sreset => respond 0 0 0 (resetCore s)
  | .rdReg n => readRegister n s
  | .rdEfreq n => respond ((readEntry s.efreq n.toNat).setWidth 32) 0 0 s
  | .rdEcum n => respond ((readEntry s.ecum n.toNat).setWidth 32) 0 0 s
  | .rdDfreq n => respond ((readEntry s.dfreq n.toNat).setWidth 32) 0 0 s
  | .rdDcum n => respond ((readEntry s.dcum n.toNat).setWidth 32) 0 0 s
  | .mbClear => clearModel s
  | .mbCount b => countSymbol b s
  | .mbFinal => finishModel s
  | .hdrWrite => respond 0 0 0 (pushEntries s.efreq.toList s)
  | .hdrRead => readHeader s
  | .encInit => respond 0 0 0 ((s.setEnc 0 Config.maxRange).setDirty false)
  | .encEncode start width total =>
    (encodeTriple start width total s).bind fun n t => respond (BitVec.ofNat 32 n) 0 0 t
  | .encSym sym => encodeSymbol sym s
  | .encFlush => flushCoder s
  | .decInit => primeDecoder s
  | .decGetfreq total => (getFreq total s).bind fun f t => respond f 0 0 t
  | .decDecode start width _ =>
    (commitTriple start width s).bind fun n t => respond (BitVec.ofNat 32 n) 0 0 t
  | .decLookup f => lookupSymbol f s
  | .decSym => decodeSymbol s

theorem exec_eq_runCommand (i : Instr) (s : State) :
    exec i s = runCommand i (pseudocode i s) s := by
  cases i <;> rfl

/-- The pseudocode of `i` from `s` ends in `u` only when this holds: an equation that names the
registers, banks and streams it may write (10_state.md R21 to R41, the writers of each). -/
def MayWrite (i : Instr) (s u : State) : Prop :=
  match i with
  | .sreset => u = resetCore s
  | .nop | .rdReg _ | .rdEfreq _ | .rdEcum _ | .rdDfreq _ | .rdDcum _ | .decLookup _ => u = s
  | .mbClear => u = { s with efreq := u.efreq, runtot := u.runtot, est := u.est }
  | .mbCount _ => u = { s with efreq := u.efreq, runtot := u.runtot }
  | .mbFinal => u = { s with ecum := u.ecum, eTotal := u.eTotal, est := u.est }
  | .hdrWrite => u = { s with out := u.out }
  | .hdrRead =>
    u = { s with
      dfreq := u.dfreq, dcum := u.dcum, dTotal := u.dTotal, dst := u.dst, dcs := u.dcs,
      srcpos := u.srcpos }
  | .encInit => u = { s with eLow := u.eLow, eRange := u.eRange, eDirty := u.eDirty }
  | .encEncode _ _ _ | .encSym _ | .encFlush =>
    u = { s with eLow := u.eLow, eRange := u.eRange, eDirty := u.eDirty, out := u.out }
  | .decInit | .decDecode _ _ _ =>
    u = { s with
      dLow := u.dLow, dRange := u.dRange, dCode := u.dCode, dcs := u.dcs, srcpos := u.srcpos }
  | .decGetfreq _ => u = { s with dRange := u.dRange, dTot := u.dTot, dcs := u.dcs }
  | .decSym =>
    u = { s with
      dLow := u.dLow, dRange := u.dRange, dCode := u.dCode, dTot := u.dTot, dcs := u.dcs,
      srcpos := u.srcpos }

theorem MayWrite.refl {i : Instr} (hi : i ≠ .sreset) (s : State) : MayWrite i s s := by
  cases i with
  | sreset => exact absurd rfl hi
  | _ => rfl

theorem keptByEncoder_mayWrite (s : State) (start width total : Word) :
    KeptByEncoder (MayWrite (.encEncode start width total) s) where
  appendOut _ bits h := congrArg (State.appendOut · bits) h
  setEnc _ low range h := congrArg (State.setEnc · low range) h
  setDirty _ d h := congrArg (State.setDirty · d) h

theorem keptByDecoder_mayWrite (s : State) (start width total : Word) :
    KeptByDecoder (MayWrite (.decDecode start width total) s) where
  advance _ _ h := congrArg (State.advance · 8) h
  setDec _ low range code h := congrArg (State.setDec · low range code) h
  setDcs _ x h := congrArg (State.setDcs · x) h

theorem keptByDecoder_mayWrite_decSym (s : State) : KeptByDecoder (MayWrite .decSym s) where
  advance _ _ h := congrArg (State.advance · 8) h
  setDec _ low range code h := congrArg (State.setDec · low range code) h
  setDcs _ x h := congrArg (State.setDcs · x) h

theorem keptByHeaderRead_mayWrite (s : State) : KeptByHeaderRead (MayWrite .hdrRead s) where
  advance _ _ h := congrArg (State.advance · 10) h
  setDFreq _ t h := congrArg (State.setDFreq · t) h
  setDCum _ m h := congrArg (State.setDCum · m) h
  setDst _ x h := congrArg (State.setDst · x) h

theorem KeptByDecoder.decodeSymbol (hP : KeptByDecoder P) {s : State} (h : P s)
    (hset : ∀ r t, P (((s.setDec s.dLow r s.dCode).setTot t).setDcs .pending)) :
    (decodeSymbol s).All P :=
  (getFreq_all h fun _ => hset _ _).bind fun _ _ hu =>
    (lookupSymbol_all hu).bind fun _ _ hv => (hP.commitTriple _ _ hv).bind fun _ _ hw => hw

theorem countSymbol_mayWrite (b : Byte) (s : State) :
    (countSymbol b s).All (MayWrite (.mbCount b) s) := by
  unfold countSymbol
  simp only
  split <;> rfl

theorem readRegister_mayWrite (n : Byte) (s : State) :
    (readRegister n s).All (MayWrite (.rdReg n) s) := by
  unfold readRegister
  split <;> rfl

/-- THE FRAME OF EVERY COMMAND: its pseudocode writes nothing but what `MayWrite` names. -/
theorem pseudocode_mayWrite (i : Instr) (s : State) : (pseudocode i s).All (MayWrite i s) := by
  cases i with
  | nop => rfl
  | sreset => rfl
  | rdReg n => exact readRegister_mayWrite n s
  | rdEfreq n => rfl
  | rdEcum n => rfl
  | rdDfreq n => rfl
  | rdDcum n => rfl
  | mbClear => rfl
  | mbCount b => exact countSymbol_mayWrite b s
  | mbFinal => rfl
  | hdrWrite =>
    show MayWrite .hdrWrite s (pushEntries s.efreq.toList s)
    rw [pushEntries_eq]
    rfl
  | hdrRead => exact (keptByHeaderRead_mayWrite s).readHeader rfl
  | encInit => rfl
  | encEncode a b c =>
    exact ((keptByEncoder_mayWrite s a b c).encodeTriple a b c (s := s) rfl).bind fun _ _ h => h
  | encSym sym => exact (keptByEncoder_mayWrite s 0 0 0).encodeSymbol sym rfl
  | encFlush => exact (keptByEncoder_mayWrite s 0 0 0).flushCoder rfl
  | decInit => exact (keptByDecoder_mayWrite s 0 0 0).primeDecoder rfl
  | decGetfreq total =>
    exact (getFreq_all (s := s) (P := MayWrite (.decGetfreq total) s) rfl fun _ => rfl).bind
      fun _ _ h => h
  | decDecode a b c =>
    exact ((keptByDecoder_mayWrite s a b c).commitTriple a b (s := s) rfl).bind fun _ _ h => h
  | decLookup f => exact lookupSymbol_all rfl
  | decSym => exact (keptByDecoder_mayWrite_decSym s).decodeSymbol rfl fun _ _ => rfl

/-- An executed command other than SRESET writes what its pseudocode may write, FCAUSE, FINFO and the
response, and nothing else. -/
theorem exec_mayWrite {i : Instr} {s t : State} (h : exec i s = .next t) (hi : i ≠ .sreset) :
    ∃ u, MayWrite i s u ∧
      t = { u with fcause := t.fcause, finfo := t.finfo, responses := t.responses } := by
  have hw := pseudocode_mayWrite i s
  rw [exec_eq_runCommand] at h
  rcases runCommand_cases h with ⟨x, -, rfl⟩ | ⟨x, d, u, -, -, hr, rfl⟩ | ⟨-, -, rfl⟩ |
    ⟨-, -, -, rfl⟩ | ⟨-, -, -, x, u, hr, rfl⟩ | ⟨-, -, -, d, u, hr, rfl⟩
  · exact ⟨s, .refl hi s, rfl⟩
  · rw [hr] at hw
    exact ⟨u, hw, rfl⟩
  · exact ⟨s, .refl hi s, rfl⟩
  · exact ⟨s, .refl hi s, rfl⟩
  · rw [hr] at hw
    exact ⟨u, hw, rfl⟩
  · rw [hr] at hw
    exact ⟨u, hw, rfl⟩

end Sys2Proof.Machine
end

section
/-! The writers of the coder registers, the sticky fault and STATUS (10_state.md R21 to R36). -/

namespace Sys2Proof.Machine

/-! ### The writers of the coder registers -/

/-- Settles O47: none of the other commands' frames names an encoder register. -/
theorem encoderRegistersHaveTheirWriters : Obligations.EncoderRegistersHaveTheirWriters := by
  intro i s t h hsreset hinit hencode hsym hflush
  obtain ⟨u, hu, ht⟩ := exec_mayWrite h hsreset
  rw [ht]
  show u.eLow = s.eLow ∧ u.eRange = s.eRange ∧ u.eDirty = s.eDirty
  cases i with
  | sreset => exact absurd rfl hsreset
  | encInit => exact absurd rfl hinit
  | encEncode a b c => exact absurd rfl (hencode a b c)
  | encSym n => exact absurd rfl (hsym n)
  | encFlush => exact absurd rfl hflush
  | _ =>
    rw [show u = _ from hu]
    exact ⟨rfl, rfl, rfl⟩

/-- D_LOW, D_CODE and D_RANGE have their writers (10_state.md R24 to R26). -/
theorem MayWrite.decoder_interval {i : Instr} {s u : State} (hu : MayWrite i s u)
    (hsreset : i ≠ .sreset) (hinit : i ≠ .decInit) (hdecode : ∀ a b c, i ≠ .decDecode a b c)
    (hsym : i ≠ .decSym) :
    u.dLow = s.dLow ∧ u.dCode = s.dCode ∧ ((∀ a, i ≠ .decGetfreq a) → u.dRange = s.dRange) := by
  cases i with
  | sreset => exact absurd rfl hsreset
  | decInit => exact absurd rfl hinit
  | decDecode a b c => exact absurd rfl (hdecode a b c)
  | decSym => exact absurd rfl hsym
  | decGetfreq a =>
    rw [show u = _ from hu]
    exact ⟨rfl, rfl, fun hget => absurd rfl (hget a)⟩
  | _ =>
    rw [show u = _ from hu]
    exact ⟨rfl, rfl, fun _ => rfl⟩

/-- D_TOT has its writers (10_state.md R27). -/
theorem MayWrite.dTot {i : Instr} {s u : State} (hu : MayWrite i s u) (hsreset : i ≠ .sreset)
    (hget : ∀ a, i ≠ .decGetfreq a) (hsym : i ≠ .decSym) : u.dTot = s.dTot := by
  cases i with
  | sreset => exact absurd rfl hsreset
  | decGetfreq a => exact absurd rfl (hget a)
  | decSym => exact absurd rfl hsym
  | _ => rw [show u = _ from hu]

/-- DCS has its writers (10_state.md R33). -/
theorem MayWrite.dcs {i : Instr} {s u : State} (hu : MayWrite i s u) (hsreset : i ≠ .sreset)
    (hread : i ≠ .hdrRead) (hinit : i ≠ .decInit) (hget : ∀ a, i ≠ .decGetfreq a)
    (hdecode : ∀ a b c, i ≠ .decDecode a b c) (hsym : i ≠ .decSym) : u.dcs = s.dcs := by
  cases i with
  | sreset => exact absurd rfl hsreset
  | hdrRead => exact absurd rfl hread
  | decInit => exact absurd rfl hinit
  | decGetfreq a => exact absurd rfl (hget a)
  | decDecode a b c => exact absurd rfl (hdecode a b c)
  | decSym => exact absurd rfl hsym
  | _ => rw [show u = _ from hu]

/-- Settles O48: none of the other commands' frames names the register. -/
theorem decoderRegistersHaveTheirWriters : Obligations.DecoderRegistersHaveTheirWriters := by
  intro i s t h hsreset
  obtain ⟨u, hu, ht⟩ := exec_mayWrite h hsreset
  rw [ht]
  exact ⟨hu.decoder_interval hsreset, hu.dTot hsreset, hu.dcs hsreset⟩

/-! ### The sticky fault -/

/-- Of the seven commands that execute while faulted only SRESET changes the state. -/
theorem MayWrite.eq_of_executesWhileFaulted {i : Instr} {s u : State} (h : MayWrite i s u)
    (he : executesWhileFaulted i = true) (hi : i ≠ .sreset) : u = s := by
  cases i with
  | nop | rdReg _ | rdEfreq _ | rdEcum _ | rdDfreq _ | rdDcum _ => exact h
  | sreset => exact absurd rfl hi
  | _ => cases he

/-- While faulted, a command other than SRESET gives a response and changes nothing else. -/
theorem exec_faulted {i : Instr} {s t : State} {x : Cause} (hx : s.fcause = some x)
    (hi : i ≠ .sreset) (h : exec i s = .next t) : t = { s with responses := t.responses } := by
  have hw := pseudocode_mayWrite i s
  rw [exec_eq_runCommand] at h
  rcases runCommand_cases h with ⟨y, -, rfl⟩ | ⟨y, d, u, -, he, hr, rfl⟩ | ⟨hn, -⟩ | ⟨hn, -⟩ |
    ⟨hn, -⟩ | ⟨hn, -⟩
  · rfl
  · rw [hr] at hw
    obtain rfl := hw.eq_of_executesWhileFaulted he hi
    rfl
  all_goals
    rw [hx] at hn
    cases hn

/-- What the decoder checks before it accepts a word (30_encoding.md R77). -/
theorem decode_ok {c : Command} {i : Instr} (h : decode c = .ok i) :
    ∃ f, decodeOpcode c = some (f, i) ∧ c.zeroField = 0 ∧ (f = .i ∨ c.imm8 = 0) := by
  unfold decode at h
  split at h
  · cases h
  · rename_i f j hop
    split at h
    · cases h
    · rename_i hz
      split at h
      · cases h
      · rename_i himm
        cases h
        exact ⟨f, hop, not_not.mp hz, by tauto⟩

/-- The three fields are the whole command word (30_encoding.md R71). -/
theorem toNat_cw (c : Command) :
    c.cw.toNat = c.opcode.toNat * 2 ^ 24 + c.zeroField.toNat * 2 ^ 8 + c.imm8.toNat := by
  have := c.cw.isLt
  simp only [Command.opcode, Command.zeroField, Command.imm8, BitVec.extractLsb'_toNat,
    Nat.shiftRight_eq_div_pow]
  omega

/-- Only the opcode 0x01 is SRESET, of format Z (30_encoding.md R76). -/
theorem decodeOpcode_sreset {c : Command} {f : Format} (h : decodeOpcode c = some (f, .sreset)) :
    f = .z ∧ c.opcode.toNat = 1 := by
  unfold decodeOpcode at h
  split at h
  case h_2 hop =>
    cases h
    exact ⟨rfl, hop⟩
  all_goals cases h

/-- SRESET has one command word (30_encoding.md R80). -/
theorem cw_of_decode_sreset {c : Command} (h : decode c = .ok .sreset) : c.cw = 0x01000000 := by
  obtain ⟨f, hdec, hz, hf⟩ := decode_ok h
  obtain ⟨rfl, hop⟩ := decodeOpcode_sreset hdec
  have himm : c.imm8 = 0 := hf.resolve_left nofun
  apply BitVec.eq_of_toNat_eq
  rw [toNat_cw, hop, hz, himm]
  rfl

/-- While faulted, four words that are not SRESET's give a response and change nothing else. -/
theorem runWords_faulted {c : Command} {s t : State} {x : Cause} (hx : s.fcause = some x)
    (hc : c.cw ≠ 0x01000000) (h : runWords c s = .next t) :
    t = { s with responses := t.responses } := by
  unfold runWords at h
  split at h
  · rename_i i hdec
    refine exec_faulted hx ?_ h
    rintro rfl
    exact hc (cw_of_decode_sreset hdec)
  · rw [illegalCommand, hx] at h
    cases h
    rfl

/-- Settles O46: a faulted block answers and refuses, and the host's fresh streams are no registers. -/
theorem firstFaultStaysUntilReset : Obligations.FirstFaultStaysUntilReset := by
  intro s t x hx
  refine ⟨fun i hi h => exec_faulted hx hi h, fun hrst hcut hsreset h => ?_⟩
  cases hin : s.inputs with
  | nil =>
    rw [step, hin] at h
    cases h
    rfl
  | cons e rest =>
    rw [step_of_inputs_cons hin] at h
    cases e with
    | command c =>
      have hx' : (s.setInputs rest).fcause = some x := hx
      have ht := runWords_faulted hx' (hsreset c rest hin) h
      rw [ht]
      rfl
    | rst => exact absurd hin (hrst rest)
    | rstDuring c k => exact absurd hin (hcut c k rest)
    | newSource bits =>
      cases h
      rfl
    | newSink =>
      cases h
      rfl

/-! ### STATUS -/

theorem toNat_append_eq_add {m n : Nat} (x : BitVec m) (y : BitVec n) :
    (x ++ y).toNat = x.toNat * 2 ^ n + y.toNat := by
  rw [BitVec.toNat_append, ← Nat.shiftLeft_add_eq_or_of_lt y.isLt, Nat.shiftLeft_eq]

/-- STATUS as a number (10_state.md R36). -/
theorem toNat_statusWord (s : State) :
    (statusWord s).toNat =
      (estCode s.est).toNat + 4 * (dstCode s.dst).toNat + 16 * (dcsCode s.dcs).toNat +
        64 * s.eDirty.toNat + 128 * s.fcause.isSome.toNat := by
  unfold statusWord faulted
  simp only [toNat_append_eq_add, BitVec.toNat_ofBool, BitVec.toNat_zero]
  ring

/-- RD_REG 0x00 runs in every fault state and answers STATUS (10_state.md R37). -/
theorem exec_rdReg_status (s : State) :
    exec (.rdReg 0x00) s = .next (answered s (statusWord s) 0 0) := by
  have hr : pseudocode (.rdReg 0x00) s = .ok ⟨statusWord s, 0, 0⟩ s := rfl
  rw [exec_eq_runCommand, hr, runCommand]
  cases s.fcause <;> rfl

/-- Settles O16: the fields of the word stand at the weights of their lowest bits. -/
theorem statusIsComposedOfFiveFields : Obligations.StatusIsComposedOfFiveFields := by
  intro s
  refine ⟨statusWord s, exec_rdReg_status s, ?_⟩
  rw [toNat_statusWord]
  congr 4
  · cases s.est <;> rfl
  · cases s.dst <;> rfl
  · cases s.dcs <;> rfl

end Sys2Proof.Machine
end

section
/-! The interval of a coder through Narrow and the renormalisation loop (42_range_encoder.md R126 to
R130), as arithmetic on a pair and then on the two procedures that run the loop. -/

namespace Sys2Proof.Machine

/-! ### The pair -/

/-- What every test of the renormalisation loop finds (42_range_encoder.md R130): the interval is not
empty and does not reach past 2^32, and reaches it only from above TOP. -/
def LoopOk (low range : Word) : Prop :=
  1 ≤ range.toNat ∧ low.toNat + range.toNat ≤ 2 ^ 32 ∧
    (low.toNat + range.toNat = 2 ^ 32 → Config.top ≤ low.toNat)

theorem intervalOk_initial : IntervalOk 0 Config.maxRange := by decide

/-- A pair on which the loop stops is an interval again. -/
theorem LoopOk.intervalOk {low range : Word} (h : LoopOk low range)
    (hstop : (renormCond low range).1 = false) : IntervalOk low range := by
  obtain ⟨-, hsum, htop⟩ := h
  rcases renormCond_cases low range with ⟨-, he⟩ | ⟨-, -, he⟩ | ⟨-, hfloor, he⟩
  · rw [he] at hstop
    cases hstop
  · rw [he] at hstop
    cases hstop
  · exact ⟨hfloor, hsum, htop, he⟩

/-- A stable pair stays below 2^32, so shifting the equal top bytes out keeps the interval whole. -/
theorem LoopOk.shift_stable {low range : Word} (h : LoopOk low range) (hs : stable low range = true) :
    LoopOk (low <<< 8) (range <<< 8) := by
  obtain ⟨hpos, hsum, htop⟩ := h
  have hs := (stable_iff _ _).mp hs
  have ht : Config.top = 2 ^ 24 := rfl
  rw [ht] at htop
  unfold LoopOk
  rw [toNat_shl8, toNat_shl8, ht]
  refine ⟨?_, ?_, ?_⟩ <;> omega

/-- The clamp makes the interval end at the next multiple of 2^24, which its shift puts at 2^32. -/
theorem LoopOk.shift_clamp {low range : Word} (h : LoopOk low range)
    (hs : stable low range = false) (hr : range.toNat < Config.floor) :
    LoopOk (low <<< 8) (clamp low <<< 8) := by
  obtain ⟨hpos, hsum, htop⟩ := h
  have hs := not_stable_iff hs
  have ht : Config.top = 2 ^ 24 := rfl
  have hf : Config.floor = 2 ^ 16 := rfl
  rw [ht] at htop
  rw [hf] at hr
  have hl := low.isLt
  have hend : low.toNat % 2 ^ 24 + (clamp low).toNat = 2 ^ 24 := by
    rw [toNat_clamp]
    omega
  have hclamp : (clamp low).toNat < 2 ^ 16 := by
    rw [toNat_clamp]
    omega
  unfold LoopOk
  rw [toNat_shl8, toNat_shl8, ht]
  refine ⟨?_, ?_, ?_⟩ <;> omega

/-- Every iteration keeps the loop's invariant (42_range_encoder.md R130). -/
theorem LoopOk.shift {low range : Word} (h : LoopOk low range)
    (hgo : (renormCond low range).1 = true) :
    LoopOk (low <<< 8) ((renormCond low range).2 <<< 8) := by
  rcases renormCond_cases low range with ⟨hs, he⟩ | ⟨hs, hr, he⟩ | ⟨-, -, he⟩
  · rw [he]
    exact h.shift_stable hs
  · rw [he]
    exact h.shift_clamp hs hr
  · rw [he] at hgo
    cases hgo

/-- An interval whose range has been divided has room for `total` parts of the quotient `r`
(42_range_encoder.md R126). -/
def DividedOk (low r : Word) (total : Nat) : Prop :=
  1 ≤ r.toNat ∧ low.toNat + r.toNat * total ≤ 2 ^ 32 ∧
    (low.toNat + r.toNat * total = 2 ^ 32 → Config.top ≤ low.toNat)

theorem pendingOk_iff {low r : Word} {tot : BitVec 16} :
    PendingOk low r tot ↔ 1 ≤ tot.toNat ∧ DividedOk low r tot.toNat := by
  unfold DividedOk
  tauto

/-- A total below 2^16 divides an interval into at least one unit per part. -/
theorem IntervalOk.divided {low range total : Word} (h : IntervalOk low range)
    (h1 : 1 ≤ total.toNat) (hlt : total.toNat < Config.maxTotal) :
    DividedOk low (range / total) total.toNat := by
  obtain ⟨hfloor, hsum, htop, -⟩ := h
  have hle : range.toNat / total.toNat * total.toNat ≤ range.toNat := Nat.div_mul_le_self _ _
  have hq : 1 ≤ range.toNat / total.toNat := by
    rw [Nat.le_div_iff_mul_le h1]
    have : Config.maxTotal = Config.floor := rfl
    omega
  unfold DividedOk
  rw [BitVec.toNat_udiv]
  exact ⟨hq, by omega, fun he => htop (by omega)⟩

/-- NARROW (42_range_encoder.md R126): the part [start, start + width) of a divided interval is one the
loop may start from, and nothing wraps. -/
theorem DividedOk.narrowed {low r start width : Word} {total : Nat} (h : DividedOk low r total)
    (hw : 1 ≤ width.toNat) (hle : start.toNat + width.toNat ≤ total) :
    LoopOk (low + start * r) (r * width) := by
  obtain ⟨hr, hsum, htop⟩ := h
  have hmul : r.toNat * (start.toNat + width.toNat) ≤ r.toNat * total := Nat.mul_le_mul_left _ hle
  rw [Nat.mul_add] at hmul
  have hpos : 1 ≤ r.toNat * width.toNat := Nat.mul_pos hr hw
  have hcomm : start.toNat * r.toNat = r.toNat * start.toNat := Nat.mul_comm _ _
  have hrange : (r * width).toNat = r.toNat * width.toNat := by
    rw [BitVec.toNat_mul]
    apply Nat.mod_eq_of_lt
    have : Config.top = 2 ^ 24 := rfl
    by_contra hge
    have := htop (by omega)
    omega
  have hlow : (low + start * r).toNat = low.toNat + r.toNat * start.toNat := by
    rw [BitVec.toNat_add, BitVec.toNat_mul, hcomm, Nat.add_mod_mod]
    apply Nat.mod_eq_of_lt
    omega
  unfold LoopOk
  rw [hrange, hlow]
  exact ⟨hpos, by omega, fun he => (htop (by omega)).trans (by omega)⟩

/-! ### The procedures -/

/-- RenormE ends in an interval (42_range_encoder.md R127, R130). -/
theorem renormE_interval {fuel n m : Nat} {s u : State} (h : LoopOk s.eLow s.eRange)
    (hr : renormE fuel n s = .ok m u) : IntervalOk u.eLow u.eRange := by
  induction fuel generalizing n s with
  | zero => cases hr
  | succ fuel ih =>
    unfold renormE at hr
    simp only at hr
    split at hr
    · rename_i hgo
      exact ih (h.shift hgo) hr
    · rename_i hstop
      cases hr
      exact h.intervalOk (by simpa using hstop)

/-- RenormD ends in an interval (43_range_decoder.md R144). -/
theorem renormD_interval {fuel n m : Nat} {s u : State} (h : LoopOk s.dLow s.dRange)
    (hr : renormD fuel n s = .ok m u) : IntervalOk u.dLow u.dRange := by
  induction fuel generalizing n s with
  | zero => cases hr
  | succ fuel ih =>
    unfold renormD at hr
    simp only at hr
    split at hr
    · rename_i hgo
      rcases pop_cases 8 s with ⟨-, hp⟩ | ⟨-, hp⟩
      · rw [hp] at hr
        cases hr
      · rw [hp, Res.bind_ok] at hr
        exact ih (h.shift hgo) hr
    · rename_i hstop
      cases hr
      exact h.intervalOk (by simpa using hstop)

/-- ENC_ENCODE's pseudocode with Narrow written out (42_range_encoder.md R122, R126). -/
theorem encodeTriple_eq (start width total : Word) (s : State) :
    encodeTriple start width total s =
      if s.eRange / total = 0 then .raised .contract (s.setDirty true)
      else renormE encFuel 0 ((s.setDirty true).setEnc (s.eLow + start * (s.eRange / total))
        (s.eRange / total * width)) := by
  rcases narrow_cases s.eLow s.eRange start width total with ⟨hq, hn⟩ | ⟨hq, hn⟩
  · simp only [encodeTriple, State.setDirty_eLow, State.setDirty_eRange, hn, if_pos hq]
  · simp only [encodeTriple, State.setDirty_eLow, State.setDirty_eRange, hn, if_neg hq]

/-- ENC_ENCODE's pseudocode takes an interval to an interval (42_range_encoder.md R122). -/
theorem encodeTriple_interval {start width total : Word} {s u : State} {n : Nat}
    (h : IntervalOk s.eLow s.eRange)
    (hc : checkTriple start.toNat width.toNat total.toNat = true)
    (hr : encodeTriple start width total s = .ok n u) : IntervalOk u.eLow u.eRange := by
  obtain ⟨hw, h1, hlt, hle⟩ := (checkTriple_iff _ _ _).mp hc
  rw [encodeTriple_eq] at hr
  split at hr
  · cases hr
  · exact renormE_interval ((h.divided h1 hlt).narrowed hw hle) hr

/-- ENC_SYM's pseudocode takes an interval to an interval (42_range_encoder.md R123). -/
theorem encodeSymbol_interval {sym : Byte} {s u : State} {d : Data}
    (h : IntervalOk s.eLow s.eRange) (hc : contractHolds (.encSym sym) s = true)
    (hr : encodeSymbol sym s = .ok d u) : IntervalOk u.eLow u.eRange := by
  obtain ⟨n, v, hv, he⟩ := Res.bind_eq_ok hr
  cases he
  refine encodeTriple_interval h ?_ hv
  have hc : checkTriple (tripleOf s.ecum sym.toNat).1 (tripleOf s.ecum sym.toNat).2 s.eTotal.toNat =
    true := hc
  obtain ⟨hw, h1, hlt, hle⟩ := (checkTriple_iff _ _ _).mp hc
  have hmax : Config.maxTotal = 2 ^ 16 := rfl
  rw [checkTriple_iff, BitVec.toNat_ofNat, BitVec.toNat_ofNat, BitVec.toNat_setWidth,
    Nat.mod_eq_of_lt (by omega), Nat.mod_eq_of_lt (by omega), Nat.mod_eq_of_lt (by omega)]
  exact ⟨hw, h1, hlt, hle⟩

/-- ENC_FLUSH leaves the interval or starts a new one (42_range_encoder.md R124). -/
theorem flushCoder_interval {s u : State} {d : Data} (h : IntervalOk s.eLow s.eRange)
    (hr : flushCoder s = .ok d u) : IntervalOk u.eLow u.eRange := by
  unfold flushCoder at hr
  split at hr
  · cases hr
    exact intervalOk_initial
  · cases hr
    exact h

/-- DEC_INIT starts a new interval (43_range_decoder.md R141). -/
theorem primeDecoder_interval {s u : State} {d : Data} (hr : primeDecoder s = .ok d u) :
    IntervalOk u.dLow u.dRange ∧ u.dcs = .ready := by
  have hkept := primeCode_all (P := fun v => IntervalOk v.dLow v.dRange) (fun _ _ h => h)
    (fun _ _ h => h) 4 (s := (s.setDcs .uninit).setDec 0 Config.maxRange 0) intervalOk_initial
  obtain ⟨_, v, hv, he⟩ := Res.bind_eq_ok hr
  rw [hv] at hkept
  cases he
  exact ⟨hkept, rfl⟩

/-- What DEC_GETFREQ's pseudocode does when it ends (43_range_decoder.md R142). -/
theorem getFreq_ok {total f : Word} {s u : State} (hr : getFreq total s = .ok f u) :
    u = ((s.setDec s.dLow (s.dRange / total) s.dCode).setTot (total.setWidth 16)).setDcs
      .pending := by
  unfold getFreq at hr
  simp only at hr
  split at hr
  · cases hr
  · cases hr
    rfl

/-- DEC_DECODE's pseudocode takes a part of a divided interval to an interval (43_range_decoder.md
R143). -/
theorem commitTriple_interval {start width : Word} {total n : Nat} {s u : State}
    (h : DividedOk s.dLow s.dRange total) (hw : 1 ≤ width.toNat)
    (hle : start.toNat + width.toNat ≤ total) (hr : commitTriple start width s = .ok n u) :
    IntervalOk u.dLow u.dRange ∧ u.dcs = .ready := by
  obtain ⟨m, v, hv, he⟩ := Res.bind_eq_ok hr
  have hint := renormD_interval (h.narrowed hw hle) hv
  cases he
  exact ⟨hint, rfl⟩

/-! ### The looked-up triple -/

/-- Lookup finds the first symbol whose cumulative entry is above f (43_range_decoder.md R145). -/
theorem lookup_some {cum : Table 18} {f : Word} {m start width : Nat}
    (hmono : ∀ i j, i ≤ j → j < 256 → (readEntry cum i).toNat ≤ (readEntry cum j).toNat)
    (h : lookup cum f = some (m, start, width)) :
    LeastAbove cum f.toNat m ∧ (start, width) = tripleOf cum m := by
  unfold lookup at h
  split at h
  · cases h
  · rename_i hf
    obtain ⟨hm, habove, hbelow⟩ :=
      bisect_spec hmono 8 0 255 (by omega) (by omega) (by omega) (Nat.lt_of_not_ge hf) nofun
    have hwalk : walkBack cum (bisect cum f.toNat 8 0 255) = bisect cum f.toNat 8 0 255 := by
      refine walkBack_eq fun i hi heq => ?_
      have := hbelow i (by omega)
      rw [heq] at this
      omega
    simp only [hwalk, Option.some.injEq, Prod.mk.injEq] at h
    obtain ⟨rfl, htriple⟩ := h
    exact ⟨⟨by omega, habove, hbelow⟩, htriple.symm⟩

/-- The triple of a looked-up symbol passes its check (43_range_decoder.md R147). -/
theorem ModelOk.lookup_contract {freq : Table 10} {cum : Table 18} {total : BitVec 18} {f : Word}
    {m start width : Nat} (hmodel : ModelOk freq cum total)
    (h : lookup cum f = some (m, start, width)) : 1 ≤ width ∧ start + width ≤ total.toNat := by
  obtain ⟨⟨hm, habove, hbelow⟩, htriple⟩ := lookup_some (fun _ _ => hmodel.mono) h
  have hsum := hmodel.tripleOf_sum hm
  have hstart : (tripleOf cum m).1 ≤ f.toNat := by
    unfold tripleOf
    simp only
    split
    · exact hbelow _ (by omega)
    · omega
  have hle := hmodel.mono (i := m) (j := 255) (by omega) (by omega)
  have htotal := hmodel.2
  rw [← htriple] at hsum hstart
  simp only at hsum hstart
  omega

/-- What DEC_LOOKUP's pseudocode does when it ends (43_range_decoder.md R146). -/
theorem lookupSymbol_ok {f : Word} {s u : State} {d : Data} (hr : lookupSymbol f s = .ok d u) :
    u = s ∧ ∃ m start width, lookup s.dcum f = some (m, start, width) ∧
      d = ⟨BitVec.ofNat 32 m, BitVec.ofNat 32 start, BitVec.ofNat 32 width⟩ := by
  unfold lookupSymbol at hr
  split at hr
  · cases hr
  · rename_i m start width hl
    cases hr
    exact ⟨rfl, m, start, width, hl, rfl⟩

/-- DEC_SYM's pseudocode takes an interval to an interval (43_range_decoder.md R147). -/
theorem decodeSymbol_interval {s u : State} {d : Data} (h : IntervalOk s.dLow s.dRange)
    (hmodel : ModelOk s.dfreq s.dcum s.dTotal) (hlt : s.dTotal.toNat < Config.maxTotal)
    (hr : decodeSymbol s = .ok d u) : IntervalOk u.dLow u.dRange ∧ u.dcs = .ready := by
  obtain ⟨f, v, hv, hr⟩ := Res.bind_eq_ok hr
  obtain ⟨e, w, hw, hr⟩ := Res.bind_eq_ok hr
  obtain ⟨n, x, hx, hr⟩ := Res.bind_eq_ok hr
  cases hr
  obtain rfl := getFreq_ok hv
  obtain ⟨rfl, m, start, width, hl, rfl⟩ := lookupSymbol_ok hw
  obtain ⟨hwidth, hle⟩ := hmodel.lookup_contract hl
  have hmax : Config.maxTotal = 2 ^ 16 := rfl
  have htotal : (s.dTotal.setWidth 32).toNat = s.dTotal.toNat := by
    rw [BitVec.toNat_setWidth]
    omega
  have hpos := hmodel.2
  have hdiv := h.divided (total := s.dTotal.setWidth 32) (by omega) (by omega)
  refine commitTriple_interval hdiv ?_ ?_ hx
  · rw [BitVec.toNat_ofNat]
    omega
  · rw [BitVec.toNat_ofNat, BitVec.toNat_ofNat]
    omega

end Sys2Proof.Machine
end

section
/-! The histogram and the two models (41_model_builder.md R101 to R107): what MB_CLEAR, MB_COUNT, MB_FINAL
and HDR_READ leave meets the bounds of 10_state.md R38, R39 and R47. -/

namespace Sys2Proof.Machine

/-- R47 (d): a histogram in progress and its running total. -/
def HistogramOk (freq : Table 10) (total : BitVec 15) : Prop :=
  total.toNat = prefixSum freq 255 ∧ total.toNat ≤ 16383 ∧ EntriesOk freq

theorem readEntry_le_of_mem {freq : Table 10} {b : Nat} (h : ∀ x ∈ freq.toList, x.toNat ≤ b) {i : Nat}
    (hi : i < 256) : (readEntry freq i).toNat ≤ b := by
  rw [readEntry_lt _ hi]
  exact h _ (Vector.mem_toList_iff.mpr (Vector.getElem_mem hi))

/-- Counters within the bounds are written back without loss (00_scope.md R11). -/
theorem histogramOk_of_counts {counts : Vector Nat 256} (hsum : counts.toList.sum ≤ 16383)
    (hmax : ∀ x ∈ counts.toList, x ≤ Config.fmax) :
    HistogramOk (mapEntries (BitVec.ofNat 10) counts) (BitVec.ofNat 15 counts.toList.sum) := by
  have hf : Config.fmax = 1022 := rfl
  have hback : (mapEntries (BitVec.ofNat 10) counts).toList.map BitVec.toNat = counts.toList := by
    rw [toList_mapEntries, List.map_map]
    refine (List.map_congr_left fun x hx => ?_).trans (List.map_id _)
    have := hmax x hx
    simp only [Function.comp_apply, BitVec.toNat_ofNat, id_eq]
    omega
  have htotal : (BitVec.ofNat 15 counts.toList.sum).toNat = counts.toList.sum := by
    rw [BitVec.toNat_ofNat]
    omega
  refine ⟨?_, by omega, fun i hi => readEntry_le_of_mem (fun v hv => ?_) hi⟩
  · rw [htotal, ← sum_toList, hback]
  · exact hmax _ (hback ▸ List.mem_map_of_mem hv)

theorem histogramOk_zero : HistogramOk (Vector.replicate 256 0) 0 := by
  have hlist : (Vector.replicate 256 (0 : BitVec 10)).toList.map BitVec.toNat = List.replicate 256 0 := by
    rw [Vector.toList_replicate, List.map_replicate]
    rfl
  refine ⟨?_, Nat.zero_le _, fun i hi => readEntry_le_of_mem (fun v hv => ?_) hi⟩
  · rw [← sum_toList]
    rw [hlist, List.sum_replicate, smul_zero]
    rfl
  · rw [Vector.toList_replicate] at hv
    rw [List.eq_of_mem_replicate hv]
    exact Nat.zero_le _

/-- Two halves and the kept 1 exceed a counter by at most one (41_model_builder.md R103). -/
theorem two_mul_halve_le (v : Nat) : 2 * halve v ≤ v + 1 := by
  unfold halve
  split <;> omega

theorem two_mul_sum_halve_le (l : List Nat) : 2 * (l.map halve).sum ≤ l.sum + l.length := by
  induction l with
  | nil => simp
  | cons v l ih =>
    have := two_mul_halve_le v
    simp only [List.map_cons, List.sum_cons, List.length_cons]
    omega

/-- Counting one byte adds one to the sum of the counters. -/
theorem sum_set_succ (l : List Nat) {i : Nat} (hi : i < l.length) :
    (l.set i (l[i] + 1)).sum = l.sum + 1 := by
  have hset := List.sum_set l i (l[i] + 1)
  have hself := List.sum_set l i l[i]
  rw [List.set_getElem_self] at hself
  rw [if_pos hi] at hset hself
  omega

/-- The counters of MB_COUNT after the increment (41_model_builder.md R102). -/
def countedEntries (b : Byte) (freq : Table 10) : Vector Nat 256 :=
  (mapEntries BitVec.toNat freq).set b.toNat ((readEntry freq b.toNat).toNat + 1) b.isLt

theorem toList_countedEntries (b : Byte) (freq : Table 10) :
    (countedEntries b freq).toList =
      (freq.toList.map BitVec.toNat).set b.toNat ((readEntry freq b.toNat).toNat + 1) := by
  simp [countedEntries, Vector.toList_set]

theorem sum_countedEntries (b : Byte) (freq : Table 10) :
    (countedEntries b freq).toList.sum = prefixSum freq 255 + 1 := by
  have hb : b.toNat < 256 := b.isLt
  have hlen : b.toNat < (freq.toList.map BitVec.toNat).length := by simpa using hb
  have hget : (freq.toList.map BitVec.toNat)[b.toNat] = (readEntry freq b.toNat).toNat := by
    rw [readEntry_lt _ hb]
    simp
  rw [toList_countedEntries, ← hget, sum_set_succ _ hlen, sum_toList]

theorem mem_countedEntries {b : Byte} {freq : Table 10} (h : EntriesOk freq) {x : Nat}
    (hx : x ∈ (countedEntries b freq).toList) :
    x ≤ Config.fmax ∨ x = (readEntry freq b.toNat).toNat + 1 := by
  rw [toList_countedEntries] at hx
  rcases List.mem_or_eq_of_mem_set hx with hx | hx
  · obtain ⟨v, hv, rfl⟩ := List.mem_map.mp hx
    obtain ⟨i, hi, rfl⟩ := List.mem_iff_getElem.mp hv
    have hi : i < 256 := by simpa using hi
    have := h i hi
    rw [readEntry_lt _ hi] at this
    exact .inl this
  · exact .inr hx

/-- MB_COUNT keeps the histogram's bounds, with a rescale and without (41_model_builder.md R102, R103). -/
theorem countSymbol_histogramOk {b : Byte} {s u : State} {d : Data}
    (h : HistogramOk s.efreq s.runtot) (hr : countSymbol b s = .ok d u) :
    HistogramOk u.efreq u.runtot := by
  obtain ⟨htotal, hle, hmax⟩ := h
  have hb : b.toNat < 256 := b.isLt
  have hv := hmax b.toNat hb
  have hsum := sum_countedEntries b s.efreq
  have hf : Config.fmax = 1022 := rfl
  have hcap : Config.fcap = 1023 := rfl
  have hceil : Config.ceil = 16384 := rfl
  unfold countSymbol at hr
  simp only at hr
  split at hr
  · cases hr
    refine histogramOk_of_counts (counts := mapEntries halve (countedEntries b s.efreq)) ?_ ?_
    · have := two_mul_sum_halve_le (countedEntries b s.efreq).toList
      rw [Vector.length_toList] at this
      rw [toList_mapEntries]
      omega
    · intro x hx
      rw [toList_mapEntries] at hx
      obtain ⟨v, hv, rfl⟩ := List.mem_map.mp hx
      have := two_mul_halve_le v
      rcases mem_countedEntries hmax hv with h | h <;> omega
  · rename_i hno
    cases hr
    have hcounts := histogramOk_of_counts (counts := countedEntries b s.efreq) (by omega) fun x hx => by
      rcases mem_countedEntries hmax hx with h | h <;> omega
    rw [hsum, ← htotal] at hcounts
    exact hcounts

/-- MB_FINAL turns a histogram into a model (41_model_builder.md R104). -/
theorem HistogramOk.buildCum {freq : Table 10} {total : BitVec 15} (h : HistogramOk freq total) :
    ModelOk freq (buildCum freq).1 (buildCum freq).2 ∧ (buildCum freq).2.toNat ≤ Config.ceil ∧
      EntriesOk freq := by
  obtain ⟨htotal, hle, hmax⟩ := h
  refine ⟨modelOk_buildCum freq, ?_, hmax⟩
  have hceil : Config.ceil = 16384 := rfl
  rw [buildCum_total]
  omega

/-- HDR_READ ends with a model below MAXTOTAL and no primed decoder (41_model_builder.md R107). -/
theorem readHeader_ok {s u : State} {d : Data} (hr : readHeader s = .ok d u) :
    ModelOk u.dfreq u.dcum u.dTotal ∧ u.dTotal.toNat < Config.maxTotal ∧ u.dst = .final ∧
      u.dcs = .uninit := by
  have hdcs : (readHeader s).All fun v => v.dcs = .uninit :=
    KeptByHeaderRead.readHeader ⟨fun _ _ h => h, fun _ _ h => h, fun _ _ h => h, fun _ _ h => h⟩ rfl
  rw [hr] at hdcs
  obtain ⟨_, v, -, hr⟩ := Res.bind_eq_ok hr
  simp only at hr
  split at hr
  · cases hr
  · rename_i hlt
    cases hr
    exact ⟨modelOk_buildCum v.dfreq, Nat.lt_of_not_ge hlt, rfl, hdcs⟩

end Sys2Proof.Machine
end

section
/-! THE INVARIANT OF 10_state.md R47: it holds after reset, and every action of the host keeps it. -/

namespace Sys2Proof.Machine

/-! ### Reset -/

theorem sidesOk_reset : EncodeSideOk State.reset ∧ DecodeSideOk State.reset :=
  ⟨⟨intervalOk_initial, nofun, nofun⟩, nofun, nofun, nofun⟩

/-- Settles O53: no interval but the initial one and no bank is claimed to hold anything. -/
theorem resetStateMeetsTheInvariant : Obligations.ResetStateMeetsTheInvariant :=
  ⟨Nat.le_refl 0, fun _ => sidesOk_reset⟩

theorem sidesOk_resetCore (s : State) : EncodeSideOk (resetCore s) ∧ DecodeSideOk (resetCore s) :=
  ⟨⟨intervalOk_initial, nofun, nofun⟩, nofun, nofun, nofun⟩

theorem inv_resetCore {s : State} (h : s.srcpos ≤ s.src.length) : Inv (resetCore s) :=
  ⟨h, fun _ => sidesOk_resetCore s⟩

/-! ### The source -/

/-- What every command does to the source: it leaves IN and stays within it (20_memory.md R53). -/
def SourceKept (s u : State) : Prop := u.src = s.src ∧ u.srcpos ≤ u.src.length

theorem SourceKept.advance {s u : State} {n : Nat} (hle : n ≤ bitsLeft u) (h : SourceKept s u) :
    SourceKept s (u.advance n) := by
  obtain ⟨hsrc, hpos⟩ := h
  unfold bitsLeft at hle
  refine ⟨hsrc, ?_⟩
  rw [State.advance_srcpos, State.advance_src]
  omega

theorem keptByDecoder_sourceKept (s : State) : KeptByDecoder (SourceKept s) where
  advance _ hle h := h.advance hle
  setDec _ _ _ _ h := h
  setDcs _ _ h := h

theorem keptByHeaderRead_sourceKept (s : State) : KeptByHeaderRead (SourceKept s) where
  advance _ hle h := h.advance hle
  setDFreq _ _ h := h
  setDCum _ _ h := h
  setDst _ _ h := h

theorem pseudocode_sourceKept (i : Instr) {s : State} (h : s.srcpos ≤ s.src.length) :
    (pseudocode i s).All (SourceKept s) := by
  have hs : SourceKept s s := ⟨rfl, h⟩
  cases i with
  | hdrRead => exact (keptByHeaderRead_sourceKept s).readHeader hs
  | decInit => exact (keptByDecoder_sourceKept s).primeDecoder hs
  | decDecode start width _ =>
    exact ((keptByDecoder_sourceKept s).commitTriple start width hs).bind fun _ _ hu => hu
  | decSym => exact (keptByDecoder_sourceKept s).decodeSymbol hs fun _ _ => hs
  | _ =>
    refine (pseudocode_mayWrite _ s).mono fun u hu => ?_
    rw [show u = _ from hu]
    exact hs

theorem runCommand_sourceKept {i : Instr} {r : Res Data} {s t : State}
    (hs : s.srcpos ≤ s.src.length) (hr : r.All (SourceKept s)) (h : runCommand i r s = .next t) :
    SourceKept s t := by
  rcases runCommand_cases h with ⟨x, -, rfl⟩ | ⟨x, d, u, -, -, rfl, rfl⟩ | ⟨-, -, rfl⟩ |
    ⟨-, -, -, rfl⟩ | ⟨-, -, -, x, u, rfl, rfl⟩ | ⟨-, -, -, d, u, rfl, rfl⟩
  · exact ⟨rfl, hs⟩
  · exact hr
  · exact ⟨rfl, hs⟩
  · exact ⟨rfl, hs⟩
  · exact hr
  · exact hr

/-- An illegal word is refused or faults, and does nothing else (40_system.md R90). -/
theorem illegalCommand_cases {cw : Word} {s t : State} (h : illegalCommand cw s = .next t) :
    (∃ x, s.fcause = some x ∧ t = refuse x s) ∨
    (s.fcause = none ∧ t = takeFault .illegalCmd cw s) := by
  unfold illegalCommand at h
  split at h
  · rename_i x hx
    cases h
    exact .inl ⟨x, hx, rfl⟩
  · rename_i hn
    cases h
    exact .inr ⟨hn, rfl⟩

theorem runWords_sourceKept {c : Command} {s t : State} (hs : s.srcpos ≤ s.src.length)
    (h : runWords c s = .next t) : SourceKept s t := by
  unfold runWords at h
  split at h
  · rw [exec_eq_runCommand] at h
    exact runCommand_sourceKept hs (pseudocode_sourceKept _ hs) h
  · rcases illegalCommand_cases h with ⟨x, -, rfl⟩ | ⟨-, rfl⟩ <;> exact ⟨rfl, hs⟩

/-! ### Commands -/

/-- DEC_INIT, DEC_DECODE and DEC_SYM end READY in an interval and leave the tables. -/
theorem sidesOk_ready {s u : State} (hs : EncodeSideOk s ∧ DecodeSideOk s) (hw : MayWrite .decSym s u)
    (hu : IntervalOk u.dLow u.dRange ∧ u.dcs = .ready) : EncodeSideOk u ∧ DecodeSideOk u := by
  obtain ⟨henc, -, -, hfinal⟩ := hs
  obtain ⟨hint, hdcs⟩ := hu
  rw [show u = _ from hw]
  exact ⟨henc, fun _ => hint, fun hp => absurd (hdcs.symm.trans hp) nofun, hfinal⟩

theorem MayWrite.decSym_of_decDecode {start width total : Word} {s u : State}
    (h : MayWrite (.decDecode start width total) s u) : MayWrite .decSym s u := by
  rw [show u = _ from h]
  rfl

/-- DEC_GETFREQ leaves the pair it divided pending (43_range_decoder.md R142). -/
theorem getFreq_pendingOk {total f : Word} {s u : State} (h : IntervalOk s.dLow s.dRange)
    (hc : contractHolds (.decGetfreq total) s = true) (hr : getFreq total s = .ok f u) :
    PendingOk u.dLow u.dRange u.dTot := by
  obtain ⟨h1, hlt⟩ : 1 ≤ total.toNat ∧ total.toNat < Config.maxTotal := of_decide_eq_true hc
  have hmax : Config.maxTotal = 2 ^ 16 := rfl
  have htot : (total.setWidth 16).toNat = total.toNat := by
    rw [BitVec.toNat_setWidth]
    omega
  obtain rfl := getFreq_ok hr
  show PendingOk s.dLow (s.dRange / total) (total.setWidth 16)
  rw [pendingOk_iff, htot]
  exact ⟨h1, h.divided h1 hlt⟩

/-- DEC_DECODE commits a part of the pending pair (43_range_decoder.md R143). -/
theorem commitTriple_ready {start width total : Word} {n : Nat} {s u : State}
    (h : PendingOk s.dLow s.dRange s.dTot)
    (hc : contractHolds (.decDecode start width total) s = true)
    (hr : commitTriple start width s = .ok n u) : IntervalOk u.dLow u.dRange ∧ u.dcs = .ready := by
  obtain ⟨heq, hcheck⟩ : total = s.dTot.setWidth 32 ∧
      checkTriple start.toNat width.toNat total.toNat = true := by
    simpa [contractHolds] using hc
  obtain ⟨hw, -, -, hle⟩ := (checkTriple_iff _ _ _).mp hcheck
  have htot : total.toNat = s.dTot.toNat := by
    have := s.dTot.isLt
    rw [heq, BitVec.toNat_setWidth]
    omega
  exact commitTriple_interval (pendingOk_iff.mp h).2 hw (htot ▸ hle) hr

/-- A command that completes on a fault-free block keeps the bounds of both sides. -/
theorem pseudocode_sidesOk {i : Instr} {s u : State} {d : Data}
    (hs : EncodeSideOk s ∧ DecodeSideOk s) (hp : protocolHolds i s = true)
    (hc : contractHolds i s = true) (hr : pseudocode i s = .ok d u) :
    EncodeSideOk u ∧ DecodeSideOk u := by
  have hw := pseudocode_mayWrite i s
  rw [hr, Res.all_ok] at hw
  have ⟨⟨henc, hcounting, hefinal⟩, hready, hpending, hdfinal⟩ := hs
  cases i with
  | nop | rdReg _ | rdEfreq _ | rdEcum _ | rdDfreq _ | rdDcum _ | decLookup _ =>
    rw [show u = s from hw]
    exact ⟨⟨henc, hcounting, hefinal⟩, hready, hpending, hdfinal⟩
  | sreset =>
    rw [show u = resetCore s from hw]
    exact sidesOk_resetCore s
  | mbClear =>
    cases hr
    exact ⟨⟨henc, fun _ => histogramOk_zero, nofun⟩, hready, hpending, hdfinal⟩
  | mbCount b =>
    have hest : s.est = .counting := by simpa [protocolHolds] using hp
    have hcount := countSymbol_histogramOk (hcounting hest) hr
    rw [show u = _ from hw]
    refine ⟨⟨henc, fun _ => hcount, fun hfin => ?_⟩, hready, hpending, hdfinal⟩
    exact absurd (hest.symm.trans hfin) nofun
  | mbFinal =>
    have hest : s.est = .counting := by simpa [protocolHolds] using hp
    cases hr
    exact ⟨⟨henc, nofun, fun _ => HistogramOk.buildCum (hcounting hest)⟩, hready, hpending, hdfinal⟩
  | hdrWrite =>
    rw [show u = _ from hw]
    exact ⟨⟨henc, hcounting, hefinal⟩, hready, hpending, hdfinal⟩
  | hdrRead =>
    obtain ⟨hmodel, hlt, -, hdcs⟩ := readHeader_ok hr
    refine ⟨?_, fun h => ?_, fun h => ?_, fun _ => ⟨hmodel, hlt⟩⟩
    · rw [show u = _ from hw]
      exact ⟨henc, hcounting, hefinal⟩
    · exact absurd (hdcs.symm.trans h) nofun
    · exact absurd (hdcs.symm.trans h) nofun
  | encInit =>
    cases hr
    exact ⟨⟨intervalOk_initial, hcounting, hefinal⟩, hready, hpending, hdfinal⟩
  | encEncode start width total =>
    obtain ⟨n, v, hv, he⟩ := Res.bind_eq_ok hr
    have hint := encodeTriple_interval henc hc hv
    cases he
    rw [show u = _ from hw]
    exact ⟨⟨hint, hcounting, hefinal⟩, hready, hpending, hdfinal⟩
  | encSym sym =>
    have hint := encodeSymbol_interval henc hc hr
    rw [show u = _ from hw]
    exact ⟨⟨hint, hcounting, hefinal⟩, hready, hpending, hdfinal⟩
  | encFlush =>
    have hint := flushCoder_interval henc hr
    rw [show u = _ from hw]
    exact ⟨⟨hint, hcounting, hefinal⟩, hready, hpending, hdfinal⟩
  | decInit =>
    exact sidesOk_ready hs (MayWrite.decSym_of_decDecode (start := 0) (width := 0) (total := 0) hw)
      (primeDecoder_interval hr)
  | decGetfreq total =>
    have hdcs : s.dcs = .ready := by simpa [protocolHolds] using hp
    obtain ⟨f, v, hv, he⟩ := Res.bind_eq_ok hr
    have hpend := getFreq_pendingOk (hready hdcs) hc hv
    obtain rfl := getFreq_ok hv
    cases he
    exact ⟨⟨henc, hcounting, hefinal⟩, nofun, fun _ => hpend, hdfinal⟩
  | decDecode start width total =>
    have hdcs : s.dcs = .pending := by simpa [protocolHolds] using hp
    obtain ⟨n, v, hv, he⟩ := Res.bind_eq_ok hr
    have hready := commitTriple_ready (hpending hdcs) hc hv
    cases he
    exact sidesOk_ready hs (MayWrite.decSym_of_decDecode hw) hready
  | decSym =>
    obtain ⟨hdcs, hdst⟩ : s.dcs = .ready ∧ s.dst = .final := by simpa [protocolHolds] using hp
    obtain ⟨hmodel, hlt⟩ := hdfinal hdst
    exact sidesOk_ready hs hw (decodeSymbol_interval (hready hdcs) hmodel hlt hr)

/-- Every command keeps the invariant. -/
theorem exec_inv {i : Instr} {s t : State} (h : Inv s) (he : exec i s = .next t) : Inv t := by
  obtain ⟨hpos, hsides⟩ := h
  rw [exec_eq_runCommand] at he
  have hsrc := runCommand_sourceKept hpos (pseudocode_sourceKept i hpos) he
  refine ⟨hsrc.2, fun hn => ?_⟩
  rcases runCommand_cases he with ⟨x, hx, rfl⟩ | ⟨x, d, u, hx, hexec, hr, rfl⟩ | ⟨-, -, rfl⟩ |
    ⟨-, -, -, rfl⟩ | ⟨-, -, -, x, u, -, rfl⟩ | ⟨hs, hp, hc, d, u, hr, rfl⟩
  · rw [refuse_fcause, hx] at hn
    cases hn
  · have hw := pseudocode_mayWrite i s
    rw [hr, Res.all_ok] at hw
    by_cases hi : i = .sreset
    · subst hi
      rw [show u = resetCore s from hw]
      exact sidesOk_resetCore s
    · obtain rfl := hw.eq_of_executesWhileFaulted hexec hi
      rw [State.answer_fcause, hx] at hn
      cases hn
  · cases hn
  · cases hn
  · cases hn
  · have hu := pseudocode_sidesOk (hsides hs) hp hc hr
    exact hu

theorem runWords_inv {c : Command} {s t : State} (h : Inv s) (hr : runWords c s = .next t) :
    Inv t := by
  unfold runWords at hr
  split at hr
  · exact exec_inv h hr
  · obtain ⟨hpos, hsides⟩ := h
    rcases illegalCommand_cases hr with ⟨x, hx, rfl⟩ | ⟨-, rfl⟩
    · exact ⟨hpos, hsides⟩
    · exact ⟨hpos, nofun⟩

/-! ### The host's actions -/

/-- What a command cut short by `rst` can do (70_reset_and_hazards.md R210). -/
theorem abandon_next {c : Command} {k : Nat} {s t : State} (h : abandon c k s = .next t) :
    ∃ u, runWords c s = .next u ∧ t = cutShort (k * transferBits c) s u := by
  unfold abandon at h
  split at h
  · rename_i u hu
    cases h
    exact ⟨u, hu, rfl⟩
  · cases h
  · cases h

theorem takeEvent_inv {e : HostEvent} {s t : State} (h : Inv s) (ht : takeEvent e s = .next t) :
    Inv t := by
  obtain ⟨hpos, hsides⟩ := h
  cases e with
  | command c => exact runWords_inv ⟨hpos, hsides⟩ ht
  | rst =>
    cases ht
    exact inv_resetCore hpos
  | rstDuring c k =>
    obtain ⟨u, hu, rfl⟩ := abandon_next ht
    obtain ⟨hsrc, hle⟩ := runWords_sourceKept hpos hu
    refine inv_resetCore ?_
    show min _ u.srcpos ≤ s.src.length
    rw [← hsrc]
    exact (Nat.min_le_right _ _).trans hle
  | newSource bits =>
    cases ht
    exact ⟨Nat.zero_le _, hsides⟩
  | newSink =>
    cases ht
    exact ⟨hpos, hsides⟩

/-- Settles O54: an idle step changes nothing, and every action of the host keeps the invariant. -/
theorem everyStepKeepsTheInvariant : Obligations.EveryStepKeepsTheInvariant := by
  intro s t h hstep
  cases hin : s.inputs with
  | nil =>
    rw [step, hin] at hstep
    cases hstep
    exact h
  | cons e rest =>
    rw [step_of_inputs_cons hin] at hstep
    exact takeEvent_inv (s := s.setInputs rest) h hstep

end Sys2Proof.Machine
end

section
/-! NONINTERFERENCE (10_state.md R49): pseudocode run from two states that agree on the readable banks
ends the same way in two such states, so the responses and all that a command may read stay the same. -/

namespace Sys2Proof.Machine

/-! ### Agreement of states -/

/-- `s` with the banks of `b`. -/
def State.withBanks (s b : State) : State :=
  { s with efreq := b.efreq, ecum := b.ecum, dfreq := b.dfreq, dcum := b.dcum }

theorem AgreeReadable.exists_banks {s t : State} (h : AgreeReadable s t) : ∃ b, t = s.withBanks b :=
  ⟨t, h.1⟩

theorem AgreeReadable.refl (s : State) : AgreeReadable s s :=
  ⟨rfl, fun _ => rfl, fun _ => rfl, fun _ => ⟨rfl, rfl⟩⟩

/-! An update that is blind to the banks, EST and DST keeps the agreement. -/

section
variable {s t : State} (h : AgreeReadable s t)
include h

theorem AgreeReadable.setEnc (low range : Word) :
    AgreeReadable (s.setEnc low range) (t.setEnc low range) :=
  ⟨congrArg (State.setEnc · low range) h.1, h.2⟩

theorem AgreeReadable.setDirty (d : Bool) :
    AgreeReadable (s.setDirty d) (t.setDirty d) :=
  ⟨congrArg (State.setDirty · d) h.1, h.2⟩

theorem AgreeReadable.setDec (low range code : Word) :
    AgreeReadable (s.setDec low range code) (t.setDec low range code) :=
  ⟨congrArg (State.setDec · low range code) h.1, h.2⟩

theorem AgreeReadable.setDcs (x : CoderState) :
    AgreeReadable (s.setDcs x) (t.setDcs x) :=
  ⟨congrArg (State.setDcs · x) h.1, h.2⟩

theorem AgreeReadable.appendOut (bits : List Bool) :
    AgreeReadable (s.appendOut bits) (t.appendOut bits) :=
  ⟨congrArg (State.appendOut · bits) h.1, h.2⟩

theorem AgreeReadable.answer (x : BitVec 8) (d : Data) :
    AgreeReadable (s.answer x d) (t.answer x d) :=
  ⟨congrArg (State.answer · x d) h.1, h.2⟩

theorem AgreeReadable.setFault (x : Cause) (cw : Word) :
    AgreeReadable (s.setFault x cw) (t.setFault x cw) :=
  ⟨congrArg (State.setFault · x cw) h.1, h.2⟩

theorem AgreeReadable.setInputs (l : List HostEvent) :
    AgreeReadable (s.setInputs l) (t.setInputs l) :=
  ⟨congrArg (State.setInputs · l) h.1, h.2⟩

end

/-! ### Agreement of results -/

/-- Two pieces of pseudocode end alike: with one value in states related by `R`, or at one raise in
states that agree on the readable banks. -/
def Res.Agree {α : Type} (R : State → State → Prop) (r q : Res α) : Prop :=
  match r, q with
  | .ok a s, .ok b t => a = b ∧ R s t
  | .raised x s, .raised y t => x = y ∧ AgreeReadable s t
  | .diverged, .diverged => True
  | _, _ => False

variable {α β : Type} {R S : State → State → Prop}

theorem Res.Agree.bind {r q : Res α} {f g : α → State → Res β} (h : r.Agree R q)
    (hfg : ∀ a u v, R u v → (f a u).Agree S (g a v)) : (r.bind f).Agree S (q.bind g) := by
  cases r <;> cases q
  case ok.ok a u b v =>
    obtain ⟨rfl, huv⟩ := h
    exact hfg _ u v huv
  case raised.raised => exact h
  case diverged.diverged => trivial
  all_goals exact False.elim h

theorem Res.Agree.ite {c : Prop} [Decidable c] {r q r' q' : Res α} (h : c → r.Agree R q)
    (h' : ¬c → r'.Agree R q') : (if c then r else r').Agree R (if c then q else q') := by
  by_cases hc : c
  · rw [if_pos hc, if_pos hc]
    exact h hc
  · rw [if_neg hc, if_neg hc]
    exact h' hc

/-! ### Procedures that read and write no bank -/

section
variable {s t : State}

theorem pop_agree (n : Nat) (h : AgreeReadable s t) : (pop n s).Agree AgreeReadable (pop n t) := by
  obtain ⟨b, rfl⟩ := h.exists_banks
  exact Res.Agree.ite (fun _ => ⟨rfl, h⟩) fun _ => ⟨rfl, rfl, h.2⟩

theorem primeCode_agree (k : Nat) (h : AgreeReadable s t) :
    (primeCode k s).Agree AgreeReadable (primeCode k t) := by
  induction k generalizing s t with
  | zero => exact ⟨rfl, h⟩
  | succ k ih =>
    refine (pop_agree 8 h).bind fun byte u v huv => ih ?_
    obtain ⟨b, rfl⟩ := huv.exists_banks
    exact huv.setDec _ _ _

theorem primeDecoder_agree (h : AgreeReadable s t) :
    (primeDecoder s).Agree AgreeReadable (primeDecoder t) := by
  refine (primeCode_agree 4 ((h.setDcs .uninit).setDec 0 Config.maxRange 0)).bind fun _ u v huv => ?_
  obtain ⟨b, rfl⟩ := huv.exists_banks
  exact ⟨rfl, huv.setDcs .ready⟩

theorem getFreq_agree (total : Word) (h : AgreeReadable s t) :
    (getFreq total s).Agree (fun u v => AgreeReadable u v ∧ u.dst = s.dst) (getFreq total t) := by
  obtain ⟨b, rfl⟩ := h.exists_banks
  exact Res.Agree.ite (fun _ => ⟨rfl, h⟩) fun _ => ⟨rfl, ⟨rfl, h.2⟩, rfl⟩

theorem renormD_agree (fuel n : Nat) (h : AgreeReadable s t) :
    (renormD fuel n s).Agree AgreeReadable (renormD fuel n t) := by
  induction fuel generalizing n s t with
  | zero => trivial
  | succ fuel ih =>
    obtain ⟨b, rfl⟩ := h.exists_banks
    refine Res.Agree.ite (fun _ => ?_) fun _ => ⟨rfl, h⟩
    refine (pop_agree 8 h).bind fun byte u v huv => ih _ ?_
    obtain ⟨c, rfl⟩ := huv.exists_banks
    exact huv.setDec _ _ _

theorem commitTriple_agree (start width : Word) (h : AgreeReadable s t) :
    (commitTriple start width s).Agree AgreeReadable (commitTriple start width t) := by
  obtain ⟨b, rfl⟩ := h.exists_banks
  exact (renormD_agree (decFuel s) 0 (h.setDec _ _ _)).bind fun n u v huv =>
    ⟨rfl, huv.setDcs .ready⟩

theorem renormE_agree (fuel n : Nat) (h : AgreeReadable s t) :
    (renormE fuel n s).Agree AgreeReadable (renormE fuel n t) := by
  induction fuel generalizing n s t with
  | zero => trivial
  | succ fuel ih =>
    obtain ⟨b, rfl⟩ := h.exists_banks
    exact Res.Agree.ite (fun _ => ih _ ((h.appendOut _).setEnc _ _)) fun _ => ⟨rfl, h⟩

theorem encodeTriple_agree (start width total : Word) (h : AgreeReadable s t) :
    (encodeTriple start width total s).Agree AgreeReadable (encodeTriple start width total t) := by
  obtain ⟨b, rfl⟩ := h.exists_banks
  rw [encodeTriple_eq, encodeTriple_eq]
  exact Res.Agree.ite (fun _ => ⟨rfl, h.setDirty true⟩) fun _ =>
    renormE_agree _ _ ((h.setDirty true).setEnc _ _)

theorem pushLow_agree (k : Nat) (h : AgreeReadable s t) :
    AgreeReadable (pushLow k s) (pushLow k t) := by
  induction k generalizing s t with
  | zero => exact h
  | succ k ih =>
    obtain ⟨b, rfl⟩ := h.exists_banks
    exact ih ((h.appendOut _).setEnc _ _)

theorem flushCoder_agree (h : AgreeReadable s t) :
    (flushCoder s).Agree AgreeReadable (flushCoder t) := by
  have hpush := ((pushLow_agree 4 h).setEnc 0 Config.maxRange).setDirty false
  obtain ⟨b, rfl⟩ := h.exists_banks
  exact Res.Agree.ite (fun _ => ⟨rfl, hpush⟩) fun _ => ⟨rfl, h⟩

/-! ### Procedures that read a bank in a state that lets them -/

theorem encodeSymbol_agree (sym : Byte) (h : AgreeReadable s t) (hest : s.est = .final) :
    (encodeSymbol sym s).Agree AgreeReadable (encodeSymbol sym t) := by
  obtain ⟨b, rfl⟩ := h.exists_banks
  have hcum : b.ecum = s.ecum := h.2.2.1 hest
  unfold encodeSymbol
  rw [show (s.withBanks b).ecum = s.ecum from hcum]
  exact (encodeTriple_agree _ _ _ h).bind fun _ _ _ huv => ⟨rfl, huv⟩

theorem lookupSymbol_agree (f : Word) (h : AgreeReadable s t) (hdst : s.dst = .final) :
    (lookupSymbol f s).Agree AgreeReadable (lookupSymbol f t) := by
  have hcum : t.dcum = s.dcum := (h.2.2.2 hdst).2
  unfold lookupSymbol
  rw [hcum]
  cases lookup s.dcum f <;> exact ⟨rfl, h⟩

theorem decodeSymbol_agree (h : AgreeReadable s t) (hdst : s.dst = .final) :
    (decodeSymbol s).Agree AgreeReadable (decodeSymbol t) := by
  obtain ⟨b, rfl⟩ := h.exists_banks
  refine (getFreq_agree (s.dTotal.setWidth 32) h).bind fun f u v huv => ?_
  obtain ⟨huv, hu⟩ := huv
  refine (lookupSymbol_agree f huv (hu.trans hdst)).bind fun d w x hwx => ?_
  exact (commitTriple_agree _ _ hwx).bind fun _ _ _ hyz => ⟨rfl, hyz⟩

theorem countSymbol_agree (b : Byte) (h : AgreeReadable s t) (hest : s.est ≠ .invalid) :
    (countSymbol b s).Agree AgreeReadable (countSymbol b t) := by
  have hefreq : t.efreq = s.efreq := h.2.1 hest
  obtain ⟨c, rfl⟩ := h.exists_banks
  unfold countSymbol
  rw [hefreq]
  exact Res.Agree.ite (fun _ => ⟨rfl, rfl, fun _ => rfl, h.2.2⟩) fun _ =>
    ⟨rfl, rfl, fun _ => rfl, h.2.2⟩

theorem finishModel_agree (h : AgreeReadable s t) (hest : s.est ≠ .invalid) :
    (finishModel s).Agree AgreeReadable (finishModel t) := by
  have hefreq : t.efreq = s.efreq := h.2.1 hest
  obtain ⟨c, rfl⟩ := h.exists_banks
  unfold finishModel
  rw [hefreq]
  exact ⟨rfl, rfl, fun _ => hefreq, fun _ => rfl, h.2.2.2⟩

/-! ### HDR_READ, which writes every entry before it makes the bank readable -/

/-- The entries before the loop's next index are equal; at its end all are (41_model_builder.md R107). -/
theorem readEntries_agree (k : Nat) (hk : k ≤ 256) (h : AgreeReadable s t) (hdst : s.dst = .invalid)
    (hd : ∀ i < 256 - k, readEntry t.dfreq i = readEntry s.dfreq i) :
    (readEntries k s).Agree (fun u v => AgreeReadable u v ∧ v.dfreq = u.dfreq) (readEntries k t) := by
  induction k generalizing s t with
  | zero => exact ⟨rfl, h, table_ext hd⟩
  | succ k ih =>
    obtain ⟨b, rfl⟩ := h.exists_banks
    rcases pop_cases 10 s with ⟨hlt, hp⟩ | ⟨hle, hp⟩
    · have hp' : pop 10 (s.withBanks b) = .raised .srcUnderflow (s.withBanks b) := if_pos hlt
      rw [readEntries, readEntries, hp, hp']
      exact ⟨rfl, h⟩
    · have hp' : pop 10 (s.withBanks b) = .ok _ ((s.withBanks b).advance 10) :=
        if_neg (Nat.not_lt.mpr hle)
      rw [readEntries, readEntries, hp, hp', Res.bind_ok, Res.bind_ok]
      refine ih (by omega) ⟨rfl, h.2.1, h.2.2.1, fun hf => absurd (hdst.symm.trans hf) nofun⟩ hdst
        fun i hi => ?_
      simp only [State.setDFreq_dfreq, State.advance_dfreq]
      rw [readEntry_writeEntry _ _ _ _ (by omega), readEntry_writeEntry _ _ _ _ (by omega)]
      split
      · rfl
      · exact hd i (by omega)

theorem readHeader_agree (h : AgreeReadable s t) :
    (readHeader s).Agree AgreeReadable (readHeader t) := by
  obtain ⟨b, rfl⟩ := h.exists_banks
  have h0 : AgreeReadable ((s.setDst .invalid).setDcs .uninit)
      (((s.withBanks b).setDst .invalid).setDcs .uninit) := ⟨rfl, h.2.1, h.2.2.1, nofun⟩
  refine (readEntries_agree 256 (Nat.le_refl _) h0 rfl (by omega)).bind fun _ u v huv => ?_
  obtain ⟨huv, hdfreq⟩ := huv
  obtain ⟨c, rfl⟩ := huv.exists_banks
  have hc : c.dfreq = u.dfreq := hdfreq
  simp only
  rw [hdfreq]
  have hread : AgreeReadable (u.setDCum (buildCum u.dfreq))
      ((u.withBanks c).setDCum (buildCum u.dfreq)) :=
    ⟨rfl, huv.2.1, huv.2.2.1, fun _ => ⟨hc, rfl⟩⟩
  exact Res.Agree.ite (fun _ => ⟨rfl, hread⟩) fun _ =>
    ⟨rfl, rfl, huv.2.1, huv.2.2.1, fun _ => ⟨hc, rfl⟩⟩

end

end Sys2Proof.Machine
end

section
/-! Noninterference through the dispatch, the command port and the host's actions (10_state.md R49). -/

namespace Sys2Proof.Machine

/-- Two outcomes that are next states are states that agree on the readable banks. -/
def NextAgree (o o' : Host.Outcome State Fault Refusal) : Prop :=
  ∀ s t, o = .next s → o' = .next t → AgreeReadable s t

theorem nextAgree_next {s t : State} (h : AgreeReadable s t) : NextAgree (.next s) (.next t) := by
  intro s' t' hs ht
  cases hs
  cases ht
  exact h

section
variable {s t : State}

/-! ### Commands -/

theorem protocolHolds_agree (i : Instr) (h : AgreeReadable s t) :
    protocolHolds i t = protocolHolds i s := by
  obtain ⟨b, rfl⟩ := h.exists_banks
  cases i <;> rfl

/-- The contract of ENC_SYM alone reads a bank, and its protocol condition is that it may. -/
theorem contractHolds_agree {i : Instr} (h : AgreeReadable s t) (hp : protocolHolds i s = true) :
    contractHolds i t = contractHolds i s := by
  cases i with
  | encSym sym =>
    have hest : s.est = .final := by simpa [protocolHolds] using hp
    have hcum : t.ecum = s.ecum := h.2.2.1 hest
    obtain ⟨b, rfl⟩ := h.exists_banks
    unfold contractHolds
    rw [hcum]
    rfl
  | decDecode start width total =>
    obtain ⟨b, rfl⟩ := h.exists_banks
    rfl
  | _ => rfl

theorem readRegister_agree (n : Byte) (h : AgreeReadable s t) :
    (readRegister n s).Agree AgreeReadable (readRegister n t) := by
  obtain ⟨b, rfl⟩ := h.exists_banks
  have hv : registerValue n (s.withBanks b) = registerValue n s := rfl
  unfold readRegister
  rw [hv]
  cases registerValue n s <;> exact ⟨rfl, h⟩

/-- Every command whose protocol condition holds ends alike from two states that agree on the readable
banks. -/
theorem pseudocode_agree {i : Instr} (h : AgreeReadable s t) (hp : protocolHolds i s = true) :
    (pseudocode i s).Agree AgreeReadable (pseudocode i t) := by
  have ⟨_, hefreq, hecum, hd⟩ := h
  cases i with
  | nop => exact ⟨rfl, h⟩
  | sreset =>
    obtain ⟨b, rfl⟩ := h.exists_banks
    exact ⟨rfl, .refl (resetCore s)⟩
  | rdReg n => exact readRegister_agree n h
  | rdEfreq n =>
    have hest : s.est ≠ .invalid := by simpa [protocolHolds] using hp
    unfold pseudocode
    rw [hefreq hest]
    exact ⟨rfl, h⟩
  | rdEcum n =>
    have hest : s.est = .final := by simpa [protocolHolds] using hp
    unfold pseudocode
    rw [hecum hest]
    exact ⟨rfl, h⟩
  | rdDfreq n =>
    have hdst : s.dst = .final := by simpa [protocolHolds] using hp
    unfold pseudocode
    rw [(hd hdst).1]
    exact ⟨rfl, h⟩
  | rdDcum n =>
    have hdst : s.dst = .final := by simpa [protocolHolds] using hp
    unfold pseudocode
    rw [(hd hdst).2]
    exact ⟨rfl, h⟩
  | mbClear =>
    obtain ⟨b, rfl⟩ := h.exists_banks
    exact ⟨rfl, rfl, fun _ => rfl, nofun, hd⟩
  | mbCount b =>
    have hest : s.est = .counting := by simpa [protocolHolds] using hp
    exact countSymbol_agree b h (hest ▸ nofun)
  | mbFinal =>
    have hest : s.est = .counting := by simpa [protocolHolds] using hp
    exact finishModel_agree h (hest ▸ nofun)
  | hdrWrite =>
    have hest : s.est = .final ∧ s.eDirty = false := by simpa [protocolHolds] using hp
    unfold pseudocode
    rw [hefreq (hest.1 ▸ nofun), pushEntries_eq, pushEntries_eq]
    exact ⟨rfl, h.appendOut _⟩
  | hdrRead => exact readHeader_agree h
  | encInit => exact ⟨rfl, (h.setEnc 0 Config.maxRange).setDirty false⟩
  | encEncode start width total =>
    exact (encodeTriple_agree start width total h).bind fun _ _ _ huv => ⟨rfl, huv⟩
  | encSym sym => exact encodeSymbol_agree sym h (by simpa [protocolHolds] using hp)
  | encFlush => exact flushCoder_agree h
  | decInit => exact primeDecoder_agree h
  | decGetfreq total => exact (getFreq_agree total h).bind fun _ _ _ huv => ⟨rfl, huv.1⟩
  | decDecode start width total =>
    exact (commitTriple_agree start width h).bind fun _ _ _ huv => ⟨rfl, huv⟩
  | decLookup f => exact lookupSymbol_agree f h (by simpa [protocolHolds] using hp)
  | decSym =>
    have hst : s.dcs = .ready ∧ s.dst = .final := by simpa [protocolHolds] using hp
    exact decodeSymbol_agree h hst.2

theorem takeFault_agree (x : Cause) (cw : Word) (h : AgreeReadable s t) :
    AgreeReadable (takeFault x cw s) (takeFault x cw t) := (h.setFault x cw).answer _ _

theorem refuse_agree (x : Cause) (h : AgreeReadable s t) : AgreeReadable (refuse x s) (refuse x t) :=
  h.answer _ _

theorem conclude_agree (cw : Word) {r q : Res Data} (h : r.Agree AgreeReadable q) :
    NextAgree (conclude cw r) (conclude cw q) := by
  cases r <;> cases q
  case ok.ok d u e v =>
    obtain ⟨rfl, huv⟩ := h
    exact nextAgree_next (huv.answer 0 d)
  case raised.raised x u y v =>
    obtain ⟨rfl, huv⟩ := h
    exact nextAgree_next (takeFault_agree x cw huv)
  case diverged.diverged => exact fun _ _ hs => nomatch hs
  all_goals exact False.elim h

theorem runFaulted_agree (x : Cause) {i : Instr} {r q : Res Data} (h : AgreeReadable s t)
    (hr : protocolHolds i s = true → r.Agree AgreeReadable q) :
    NextAgree (runFaulted x i r s) (runFaulted x i q t) := by
  unfold runFaulted
  rw [protocolHolds_agree i h]
  by_cases hp : protocolHolds i s = true
  · rw [contractHolds_agree h hp]
    split
    · have hrq := hr hp
      cases r <;> cases q
      case ok.ok d u e v =>
        obtain ⟨rfl, huv⟩ := hrq
        exact nextAgree_next (huv.answer 0 d)
      case raised.raised => exact nextAgree_next (refuse_agree x h)
      case diverged.diverged => exact fun _ _ hs => nomatch hs
      all_goals exact False.elim hrq
    · exact nextAgree_next (refuse_agree x h)
  · simp only [hp, Bool.and_false, Bool.false_and]
    exact nextAgree_next (refuse_agree x h)

theorem runCommand_agree {i : Instr} {r q : Res Data} (h : AgreeReadable s t)
    (hr : protocolHolds i s = true → r.Agree AgreeReadable q) :
    NextAgree (runCommand i r s) (runCommand i q t) := by
  have hf : t.fcause = s.fcause := by
    obtain ⟨b, rfl⟩ := h.exists_banks
    rfl
  unfold runCommand
  rw [hf, protocolHolds_agree i h]
  cases s.fcause with
  | some x => exact runFaulted_agree x h hr
  | none =>
    by_cases hp : protocolHolds i s = true
    · rw [contractHolds_agree h hp, hp]
      cases contractHolds i s with
      | true => exact conclude_agree _ (hr hp)
      | false => exact nextAgree_next (takeFault_agree _ _ h)
    · rw [Bool.eq_false_iff.mpr hp]
      exact nextAgree_next (takeFault_agree _ _ h)

theorem illegalCommand_agree (cw : Word) (h : AgreeReadable s t) :
    NextAgree (illegalCommand cw s) (illegalCommand cw t) := by
  have hf : t.fcause = s.fcause := by
    obtain ⟨b, rfl⟩ := h.exists_banks
    rfl
  unfold illegalCommand
  rw [hf]
  cases s.fcause with
  | some x => exact nextAgree_next (refuse_agree x h)
  | none => exact nextAgree_next (takeFault_agree _ _ h)

theorem runWords_agree (c : Command) (h : AgreeReadable s t) :
    NextAgree (runWords c s) (runWords c t) := by
  unfold runWords
  cases decode c with
  | ok i =>
    simp only [exec_eq_runCommand]
    exact runCommand_agree h (pseudocode_agree h)
  | error _ => exact illegalCommand_agree c.cw h

/-! ### The host's actions -/

/-- A reset leaves nothing of the banks. -/
theorem resetCore_agree (h : AgreeReadable s t) : AgreeReadable (resetCore s) (resetCore t) := by
  obtain ⟨b, rfl⟩ := h.exists_banks
  exact .refl (resetCore s)

theorem cutShort_agree (bits : Nat) {u v : State} (h : AgreeReadable s t) (huv : AgreeReadable u v) :
    AgreeReadable (cutShort bits s u) (cutShort bits t v) := by
  obtain ⟨b, rfl⟩ := h.exists_banks
  obtain ⟨c, rfl⟩ := huv.exists_banks
  exact .refl (cutShort bits s u)

theorem takeEvent_agree (e : HostEvent) (h : AgreeReadable s t) :
    NextAgree (takeEvent e s) (takeEvent e t) := by
  cases e with
  | command c => exact runWords_agree c h
  | rst => exact nextAgree_next (resetCore_agree h)
  | rstDuring c k =>
    intro s' t' hs ht
    obtain ⟨u, hu, rfl⟩ := abandon_next hs
    obtain ⟨v, hv, rfl⟩ := abandon_next ht
    exact cutShort_agree _ h (runWords_agree c h u v hu hv)
  | newSource bits =>
    obtain ⟨b, rfl⟩ := h.exists_banks
    exact nextAgree_next ⟨rfl, h.2⟩
  | newSink =>
    obtain ⟨b, rfl⟩ := h.exists_banks
    exact nextAgree_next ⟨rfl, h.2⟩

end

/-- Settles O55: both states hold the same queue, an idle step changes neither, and each action of the
host keeps the agreement. -/
theorem unspecifiedContentsAreNeverRead : Obligations.UnspecifiedContentsAreNeverRead := by
  intro s t s' t' h hs ht
  obtain ⟨b, rfl⟩ := h.exists_banks
  cases hin : s.inputs with
  | nil =>
    have hin' : (s.withBanks b).inputs = [] := hin
    rw [step, hin] at hs
    rw [step, hin'] at ht
    cases hs
    cases ht
    exact h
  | cons e rest =>
    have hin' : (s.withBanks b).inputs = e :: rest := hin
    rw [step_of_inputs_cons hin] at hs
    rw [step_of_inputs_cons hin'] at ht
    exact takeEvent_agree e (h.setInputs rest) s' t' hs ht

end Sys2Proof.Machine
end

section
/-! Push and Pop bit by bit (20_memory.md R52, R53). -/

namespace Sys2Proof.Machine

theorem getElem?_bitsMsbFirst {n k : Nat} (v : Nat) (hk : k < n) :
    (bitsMsbFirst n v)[k]? = some (v.testBit (n - 1 - k)) := by
  have hlen : k < (bitsMsbFirst n v).length := by simpa using hk
  rw [List.getElem?_eq_getElem hlen, getElem_bitsMsbFirst]

/-- Settles O51: the bits appended are the model's own list of them. -/
theorem pushAppendsMostSignificantFirst : Obligations.PushAppendsMostSignificantFirst := fun n v _ =>
  ⟨bitsMsbFirst n v, length_bitsMsbFirst n v, fun _ hk => getElem?_bitsMsbFirst v hk, rfl⟩

/-- Reading a sequence as a value loses no bit: the k-th of its bits is bit `length - 1 - k`. -/
theorem getElem?_eq_testBit_natOfBits (bits : List Bool) {k : Nat} (hk : k < bits.length) :
    bits[k]? = some ((natOfBits bits).testBit (bits.length - 1 - k)) := by
  induction bits generalizing k with
  | nil => cases hk
  | cons b rest ih =>
    rw [natOfBits_cons, mul_comm, Nat.testBit_two_pow_mul_add _ (natOfBits_lt rest)]
    cases k with
    | zero => cases b <;> simp
    | succ k =>
      have hrest : k < rest.length := Nat.lt_of_succ_lt_succ hk
      have hpos : (b :: rest).length - 1 - (k + 1) = rest.length - 1 - k := by
        rw [List.length_cons]
        omega
      rw [hpos, if_pos (by omega), List.getElem?_cons_succ, ih hrest]

/-- The bits Pop takes stand in IN from SRCPOS on. -/
theorem getElem?_src_eq_getLsbD {n k : Nat} {s : State} (hn : n ≤ bitsLeft s) (hk : k < n) :
    s.src[s.srcpos + k]? =
      some ((BitVec.ofNat n (natOfBits ((s.src.drop s.srcpos).take n))).getLsbD (n - 1 - k)) := by
  have hlen : ((s.src.drop s.srcpos).take n).length = n := by
    rw [List.length_take, List.length_drop]
    exact min_eq_left hn
  have hbit := getElem?_eq_testBit_natOfBits ((s.src.drop s.srcpos).take n) (k := k) (by omega)
  rw [hlen, List.getElem?_take_of_lt hk, List.getElem?_drop] at hbit
  rw [hbit, BitVec.getLsbD_ofNat, decide_eq_true (by omega), Bool.true_and]

/-- Settles O52: the two cases of Pop, the value read back bit by bit. -/
theorem popTakesTheNextBitsOrNothing : Obligations.PopTakesTheNextBitsOrNothing := by
  intro n s
  rcases pop_cases n s with ⟨hshort, hpop⟩ | ⟨hn, hpop⟩
  · exact ⟨fun hn => absurd hshort (Nat.not_lt.mpr hn), fun _ => hpop⟩
  · exact ⟨fun _ => ⟨_, fun _ hk => getElem?_src_eq_getLsbD hn hk, hpop⟩,
      fun hshort => absurd hshort (Nat.not_lt.mpr hn)⟩

end Sys2Proof.Machine
end

section
/-! The streams through a command (20_memory.md R50, R57, R58): OUT keeps its prefix, SRCPOS never goes
back, IN stays, and the commands whose frame names neither stream leave both. -/

namespace Sys2Proof.Machine

/-- What holds before a command and where its pseudocode ends holds after it, when FCAUSE, FINFO and the
responses do not matter to it. -/
theorem exec_all {P : State → Prop} {i : Instr} {s t : State}
    (hP : ∀ u x w rs, P u → P { u with fcause := x, finfo := w, responses := rs })
    (hs : P s) (hcode : (pseudocode i s).All P) (h : exec i s = .next t) : P t := by
  rw [exec_eq_runCommand] at h
  generalize pseudocode i s = r at h hcode
  rcases runCommand_cases h with ⟨x, -, rfl⟩ | ⟨x, d, u, -, -, rfl, rfl⟩ | ⟨-, -, rfl⟩ |
    ⟨-, -, -, rfl⟩ | ⟨-, -, -, x, u, rfl, rfl⟩ | ⟨-, -, -, d, u, rfl, rfl⟩
  · exact hP s _ _ _ hs
  · exact hP u _ _ _ hcode
  · exact hP s _ _ _ hs
  · exact hP s _ _ _ hs
  · exact hP u _ _ _ hcode
  · exact hP u _ _ _ hcode

/-- From `s` to `u` no bit of OUT is removed, SRCPOS does not go back and IN stays (20_memory.md R50). -/
structure StreamsAdvance (s u : State) : Prop where
  out : s.out <+: u.out
  srcpos : s.srcpos ≤ u.srcpos
  src : u.src = s.src

theorem StreamsAdvance.refl (s : State) : StreamsAdvance s s := ⟨List.prefix_rfl, le_rfl, rfl⟩

theorem StreamsAdvance.appendOut {s u : State} (h : StreamsAdvance s u) (bits : List Bool) :
    StreamsAdvance s (u.appendOut bits) :=
  ⟨h.out.trans (List.prefix_append _ _), h.srcpos, h.src⟩

theorem StreamsAdvance.advance {s u : State} (h : StreamsAdvance s u) (n : Nat) :
    StreamsAdvance s (u.advance n) :=
  ⟨h.out, h.srcpos.trans (Nat.le_add_right _ _), h.src⟩

/-- A write of registers and banks only. -/
theorem StreamsAdvance.of_streams_eq {s u v : State} (h : StreamsAdvance s u) (hout : v.out = u.out)
    (hpos : v.srcpos = u.srcpos) (hsrc : v.src = u.src) : StreamsAdvance s v :=
  ⟨hout ▸ h.out, hpos ▸ h.srcpos, hsrc.trans h.src⟩

theorem keptByEncoder_streamsAdvance (s : State) : KeptByEncoder (StreamsAdvance s) where
  appendOut _ bits h := h.appendOut bits
  setEnc _ _ _ h := h.of_streams_eq rfl rfl rfl
  setDirty _ _ h := h.of_streams_eq rfl rfl rfl

theorem keptByDecoder_streamsAdvance (s : State) : KeptByDecoder (StreamsAdvance s) where
  advance _ _ h := h.advance 8
  setDec _ _ _ _ h := h.of_streams_eq rfl rfl rfl
  setDcs _ _ h := h.of_streams_eq rfl rfl rfl

theorem keptByHeaderRead_streamsAdvance (s : State) : KeptByHeaderRead (StreamsAdvance s) where
  advance _ _ h := h.advance 10
  setDFreq _ _ h := h.of_streams_eq rfl rfl rfl
  setDCum _ _ h := h.of_streams_eq rfl rfl rfl
  setDst _ _ h := h.of_streams_eq rfl rfl rfl

theorem pseudocode_streamsAdvance (i : Instr) (s : State) :
    (pseudocode i s).All (StreamsAdvance s) := by
  have hs := StreamsAdvance.refl s
  cases i with
  | hdrWrite =>
    show StreamsAdvance s (pushEntries s.efreq.toList s)
    rw [pushEntries_eq]
    exact hs.appendOut _
  | hdrRead =>
    exact (keptByHeaderRead_streamsAdvance s).readHeader (hs.of_streams_eq rfl rfl rfl)
  | encEncode start width total =>
    exact ((keptByEncoder_streamsAdvance s).encodeTriple start width total hs).bind fun _ _ hu => hu
  | encSym sym => exact (keptByEncoder_streamsAdvance s).encodeSymbol sym hs
  | encFlush => exact (keptByEncoder_streamsAdvance s).flushCoder hs
  | decInit => exact (keptByDecoder_streamsAdvance s).primeDecoder hs
  | decDecode start width _ =>
    exact ((keptByDecoder_streamsAdvance s).commitTriple start width hs).bind fun _ _ hu => hu
  | decSym =>
    exact (keptByDecoder_streamsAdvance s).decodeSymbol hs fun _ _ => hs.of_streams_eq rfl rfl rfl
  | _ =>
    refine (pseudocode_mayWrite _ s).mono fun u hu => ?_
    rw [show u = _ from hu]
    exact hs.of_streams_eq rfl rfl rfl

/-- OUT has its writers (20_memory.md R57). -/
theorem MayWrite.out {i : Instr} {s u : State} (hu : MayWrite i s u) (hwrite : i ≠ .hdrWrite)
    (hencode : ∀ a b c, i ≠ .encEncode a b c) (hsym : ∀ n, i ≠ .encSym n) (hflush : i ≠ .encFlush) :
    u.out = s.out := by
  cases i with
  | hdrWrite => exact absurd rfl hwrite
  | encEncode a b c => exact absurd rfl (hencode a b c)
  | encSym n => exact absurd rfl (hsym n)
  | encFlush => exact absurd rfl hflush
  | sreset => rw [show u = resetCore s from hu, resetCore_out]
  | _ => rw [show u = _ from hu]

/-- SRCPOS has its writers (20_memory.md R57). -/
theorem MayWrite.srcpos {i : Instr} {s u : State} (hu : MayWrite i s u) (hread : i ≠ .hdrRead)
    (hinit : i ≠ .decInit) (hdecode : ∀ a b c, i ≠ .decDecode a b c) (hsym : i ≠ .decSym) :
    u.srcpos = s.srcpos := by
  cases i with
  | hdrRead => exact absurd rfl hread
  | decInit => exact absurd rfl hinit
  | decDecode a b c => exact absurd rfl (hdecode a b c)
  | decSym => exact absurd rfl hsym
  | sreset => rw [show u = resetCore s from hu, resetCore_srcpos]
  | _ => rw [show u = _ from hu]

/-- Settles O50: every write of a command advances the streams or leaves them, and the frames of the
other commands name neither OUT nor SRCPOS. -/
theorem streamsOnlyAdvance : Obligations.StreamsOnlyAdvance := by
  intro i s t h
  obtain ⟨⟨pushed, hout⟩, hpos, hsrc⟩ : StreamsAdvance s t :=
    exec_all (fun _ _ _ _ hu => hu.of_streams_eq rfl rfl rfl) (.refl s)
      (pseudocode_streamsAdvance i s) h
  refine ⟨⟨pushed, hout.symm⟩, hpos, hsrc, fun hwrite hencode hsym hflush => ?_,
    fun hread hinit hdecode hsym => ?_⟩
  · exact exec_all (P := fun u => u.out = s.out) (fun _ _ _ _ hu => hu) rfl
      ((pseudocode_mayWrite i s).mono fun _ hu => hu.out hwrite hencode hsym hflush) h
  · exact exec_all (P := fun u => u.srcpos = s.srcpos) (fun _ _ _ _ hu => hu) rfl
      ((pseudocode_mayWrite i s).mono fun _ hu => hu.srcpos hread hinit hdecode hsym) h

end Sys2Proof.Machine
end

section
/-! Decoding and encoding (30_encoding.md R71 to R77): which command words decode, read from the encoder,
from R77's list and from the rows of R76. -/

namespace Sys2Proof

open Machine (decode_ok toNat_cw toNat_append_eq_add)

/-! ### The decoder's checks -/

/-- A word that passes the decoder's checks decodes to its opcode's command (30_encoding.md R72). -/
theorem decode_of_decodeOpcode {c : Command} {f : Format} {i : Instr}
    (hop : decodeOpcode c = some (f, i)) (hzero : c.zeroField = 0) (himm : f = .i ∨ c.imm8 = 0) :
    decode c = .ok i := by
  have himm' : ¬(f ≠ .i ∧ c.imm8 ≠ 0) := by tauto
  simp only [decode, hop, hzero, ne_eq, not_true_eq_false, if_false, if_neg himm']

theorem exists_decode_ok_iff {c : Command} :
    (∃ i, decode c = .ok i) ↔
      ∃ f i, decodeOpcode c = some (f, i) ∧ c.zeroField = 0 ∧ (f = .i ∨ c.imm8 = 0) := by
  constructor
  · rintro ⟨i, h⟩
    obtain ⟨f, hchecks⟩ := decode_ok h
    exact ⟨f, i, hchecks⟩
  · rintro ⟨f, i, hop, hzero, himm⟩
    exact ⟨i, decode_of_decodeOpcode hop hzero himm⟩

/-! ### The encoder -/

@[simp] theorem zeroField_encode (i : Instr) : (encode i).zeroField = 0 := by
  cases i <;> exact zeroField_mk _ _ _ _ _

/-- Every command's row of R76 is found by its opcode, and only format I puts an immediate in. -/
theorem decodeOpcode_encode (i : Instr) :
    ∃ f, decodeOpcode (encode i) = some (f, i) ∧ (f = .i ∨ (encode i).imm8 = 0) := by
  cases i with
  | rdReg | rdEfreq | rdEcum | rdDfreq | rdDcum | mbCount | encSym =>
    exact ⟨.i, by simp [decodeOpcode, encode, encodeI], .inl rfl⟩
  | encEncode | decDecode =>
    exact ⟨.abc, by simp [decodeOpcode, encode, encodeABC], .inr (imm8_mk _ _ _ _ _)⟩
  | decGetfreq | decLookup =>
    exact ⟨.a, by simp [decodeOpcode, encode, encodeA], .inr (imm8_mk _ _ _ _ _)⟩
  | _ => exact ⟨.z, by simp [decodeOpcode, encode, encodeZ], .inr (imm8_mk _ _ _ _ _)⟩

/-- Settles O1: the encoded word carries its row's opcode, a clear reserved field and the operands. -/
theorem decodeOfEncodeIsIdentity : Obligations.DecodeOfEncodeIsIdentity := by
  intro i
  obtain ⟨f, hop, himm⟩ := decodeOpcode_encode i
  exact decode_of_decodeOpcode hop (zeroField_encode i) himm

/-- The encoder writes back the opcode and the immediate the decoder read (30_encoding.md R71). -/
theorem fields_encode_of_decodeOpcode {c : Command} {f : Format} {i : Instr}
    (h : decodeOpcode c = some (f, i)) :
    (encode i).opcode.toNat = c.opcode.toNat ∧ (encode i).imm8 = if f = .i then c.imm8 else 0 := by
  unfold decodeOpcode at h
  split at h
  case h_22 => cases h
  all_goals
    rename_i hop
    cases h
    rw [hop]
    exact ⟨congrArg BitVec.toNat (opcode_mk _ _ _ _ _), imm8_mk _ _ _ _ _⟩

/-- Settles O2: the three fields of the two words agree. -/
theorem decodedWordIsTheEncodedWord : Obligations.DecodedWordIsTheEncodedWord := by
  intro c i h
  obtain ⟨f, hop, hzero, himm⟩ := decode_ok h
  obtain ⟨hopcode, himm8⟩ := fields_encode_of_decodeOpcode hop
  have himm' : (encode i).imm8 = c.imm8 := by
    rw [himm8]
    split
    · rfl
    · exact (himm.resolve_left ‹_›).symm
  apply BitVec.eq_of_toNat_eq
  rw [toNat_cw, toNat_cw c, hopcode, zeroField_encode, hzero, himm']

/-! ### The illegal words of R77 -/

/-- The opcodes without a command are those R77 lists. -/
theorem decodeOpcode_eq_none_iff {c : Command} :
    decodeOpcode c = none ↔ c.opcodeAssigned = false := by
  have := c.opcode.isLt
  unfold decodeOpcode Command.opcodeAssigned
  split
  case h_22 =>
    simp only [true_iff, Bool.not_eq_false', Bool.or_eq_true, Bool.and_eq_true, beq_iff_eq,
      decide_eq_true_eq, imp_false] at *
    omega
  all_goals simp [*]

/-- The opcodes of format I are the seven with an immediate (30_encoding.md R72). -/
theorem hasImmediate_iff {c : Command} {f : Format} {i : Instr} (h : decodeOpcode c = some (f, i)) :
    c.hasImmediate = true ↔ f = .i := by
  unfold decodeOpcode at h
  unfold Command.hasImmediate
  split at h
  case h_22 => cases h
  all_goals
    rename_i hop
    cases h
    rw [hop]
    decide

theorem decode_ok_iff_wellFormed {c : Command} :
    (∃ i, decode c = .ok i) ↔ c.wellFormed = true := by
  rw [exists_decode_ok_iff]
  cases hop : decodeOpcode c with
  | none => simp [Command.wellFormed, decodeOpcode_eq_none_iff.mp hop]
  | some fi =>
    obtain ⟨f, i⟩ := fi
    have hassigned : c.opcodeAssigned = true := by
      rw [← Bool.not_eq_false, ← decodeOpcode_eq_none_iff, hop]
      nofun
    simp [Command.wellFormed, Command.zeroFieldClear, Command.immediateAllowed, hassigned,
      hasImmediate_iff hop]

/-! ### The rows of R76 -/

/-- Which bits of a word a row's format compares (30_encoding.md R72). -/
theorem toNat_and_mask (r : OpcodeRow) (w : Word) :
    (w &&& r.mask).toNat = if r.format = .i then w.toNat / 2 ^ 8 * 2 ^ 8 else w.toNat := by
  unfold OpcodeRow.mask
  cases r.format with
  | i =>
    show (w &&& BitVec.allOnes 32 <<< 8).toNat = _
    rw [← BitVec.shiftLeft_ushiftRight, BitVec.toNat_shiftLeft, BitVec.toNat_ushiftRight,
      Nat.shiftRight_eq_div_pow, Nat.shiftLeft_eq, if_pos rfl]
    have := w.isLt
    omega
  | z | a | abc =>
    show (w &&& BitVec.allOnes 32).toNat = _
    rw [BitVec.and_allOnes, if_neg nofun]

/-- A word matches a row when its opcode is the row's and no bit is set that the row's format does not
use (30_encoding.md R72). -/
theorem matchesWord_iff (r : OpcodeRow) (c : Command) :
    r.matchesWord c.cw = true ↔
      r.opcode = c.opcode ∧ c.zeroField = 0 ∧ (r.format = .i ∨ c.imm8 = 0) := by
  have hmatch : r.matchWord.toNat = r.opcode.toNat * 2 ^ 24 := by
    rw [OpcodeRow.matchWord, toNat_append_eq_add, BitVec.toNat_zero, Nat.add_zero]
  have hop := c.opcode.isLt
  have hzero := c.zeroField.isLt
  have himm := c.imm8.isLt
  rw [OpcodeRow.matchesWord, beq_iff_eq]
  simp only [← BitVec.toNat_inj, BitVec.ofNat_eq_ofNat, BitVec.toNat_zero]
  rw [toNat_and_mask, toNat_cw, hmatch]
  split
  · simp only [*, true_or, and_true]
    omega
  · simp only [*, false_or]
    omega

/-- Every opcode the decoder knows is in the table, with its format (30_encoding.md R76). -/
theorem exists_row_of_decodeOpcode {c : Command} {f : Format} {i : Instr}
    (h : decodeOpcode c = some (f, i)) : ∃ r ∈ opcodeTable, r.opcode = c.opcode ∧ r.format = f := by
  unfold decodeOpcode at h
  split at h
  case h_22 => cases h
  all_goals
    rename_i hop
    cases h
    simp only [← BitVec.toNat_inj, hop]
    decide

/-- Every row of the table is known to the decoder, with its format (30_encoding.md R76). -/
theorem decodeOpcode_of_row {r : OpcodeRow} (hr : r ∈ opcodeTable) {c : Command}
    (hop : r.opcode = c.opcode) : ∃ i, decodeOpcode c = some (r.format, i) := by
  unfold decodeOpcode
  rw [← hop]
  fin_cases hr <;> exact ⟨_, rfl⟩

theorem decode_ok_iff_matchesWord {c : Command} :
    (∃ i, decode c = .ok i) ↔ ∃ r ∈ opcodeTable, r.matchesWord c.cw = true := by
  simp only [exists_decode_ok_iff, matchesWord_iff]
  constructor
  · rintro ⟨f, i, h, hchecks⟩
    obtain ⟨r, hr, hop, rfl⟩ := exists_row_of_decodeOpcode h
    exact ⟨r, hr, hop, hchecks⟩
  · rintro ⟨r, hr, hop, hchecks⟩
    obtain ⟨i, h⟩ := decodeOpcode_of_row hr hop
    exact ⟨r.format, i, h, hchecks⟩

/-- No two rows share an opcode (30_encoding.md R76). -/
theorem opcodeTable_opcode_nodup : (opcodeTable.map OpcodeRow.opcode).Nodup := by decide

/-- Settles O3: the decoder, R77's list and the rows' masks say the same of the three fields. -/
theorem decodeAcceptsExactlyTheTable : Obligations.DecodeAcceptsExactlyTheTable := by
  refine ⟨fun c => decode_ok_iff_wellFormed, fun c => decode_ok_iff_matchesWord,
    fun r hr q hq w hrw hqw => ?_⟩
  have hrw := ((matchesWord_iff r ⟨w, 0, 0, 0⟩).mp hrw).1
  have hqw := ((matchesWord_iff q ⟨w, 0, 0, 0⟩).mp hqw).1
  exact List.inj_on_of_nodup_map opcodeTable_opcode_nodup hr hq (hrw.trans hqw.symm)

/-- Settles O5: each word is decoded by the model. -/
theorem sampleWordsDecode : Obligations.SampleWordsDecode :=
  ⟨rfl, rfl, rfl, rfl, rfl, rfl, rfl, ⟨_, rfl⟩, ⟨_, rfl⟩, ⟨_, rfl⟩⟩

end Sys2Proof
end

section
/-! The operand words a format does not use (30_encoding.md R70, R72): a decoding does not read them, and
neither does a step. -/

namespace Sys2Proof

open Machine

/-- The opcode as arithmetic on the command word (30_encoding.md R71). -/
theorem toNat_opcode (c : Command) : c.opcode.toNat = c.cw.toNat / 2 ^ 24 := by
  have := c.cw.isLt
  rw [Command.opcode, BitVec.extractLsb'_toNat, Nat.shiftRight_eq_div_pow]
  omega

section
variable {c d : Command} (hcw : c.cw = d.cw)
include hcw

theorem opcode_congr : c.opcode = d.opcode := congrArg (BitVec.extractLsb' 24 8) hcw

theorem zeroField_congr : c.zeroField = d.zeroField := congrArg (BitVec.extractLsb' 8 16) hcw

theorem imm8_congr : c.imm8 = d.imm8 := congrArg (BitVec.extractLsb' 0 8) hcw

/-- The operand words matter to a decoding only through the opcode's command. -/
theorem decode_congr (hop : decodeOpcode c = decodeOpcode d) : decode c = decode d := by
  rw [decode, decode, hop, zeroField_congr hcw, imm8_congr hcw]

/-- Four rows of R76 use operand words; the other commands are read from CW alone. -/
theorem decodeOpcode_eq_of_cw_eq (h : c.opcode.toNat ∉ [0x21, 0x31, 0x32, 0x33]) :
    decodeOpcode c = decodeOpcode d := by
  unfold decodeOpcode
  rw [← opcode_congr hcw, ← imm8_congr hcw]
  split
  case h_14 hop | h_18 hop | h_19 hop | h_20 hop => exact absurd (hop ▸ h) (by decide)
  all_goals rfl

/-- Format A reads operand word A and neither B nor C (30_encoding.md R72). -/
theorem decodeOpcode_eq_of_cw_a_eq (ha : c.a = d.a) (h : c.opcode.toNat ∈ [0x31, 0x33]) :
    decodeOpcode c = decodeOpcode d := by
  unfold decodeOpcode
  rw [← opcode_congr hcw, ha]
  simp only [List.mem_cons, List.not_mem_nil, or_false] at h
  rcases h with h | h <;> rw [h] <;> rfl

/-- Words that decode alike run alike: the fault of an illegal word records CW only. -/
theorem runWords_congr (hop : decodeOpcode c = decodeOpcode d) (s : State) :
    runWords c s = runWords d s := by
  rw [runWords, runWords, decode_congr hcw hop, hcw]

theorem step_command_congr (hop : decodeOpcode c = decodeOpcode d) (s : State)
    (rest : List HostEvent) :
    step { s with inputs := .command c :: rest } = step { s with inputs := .command d :: rest } :=
  runWords_congr hcw hop { s with inputs := rest }

end

/-- Settles O4: presentations of one command word that agree on the used operand words decode alike. -/
theorem unusedOperandWordsAreIgnored : Obligations.UnusedOperandWordsAreIgnored := by
  intro s cw a b c a' b' c' rest
  have hop : (Command.mk cw a b c).opcode.toNat = cw.toNat / 2 ^ 24 := toNat_opcode _
  have hcw : (Command.mk cw a b c).cw = (Command.mk cw a' b' c').cw := rfl
  have hcwa : (Command.mk cw a b c).cw = (Command.mk cw a b' c').cw := rfl
  rw [← hop]
  exact ⟨fun h => step_command_congr hcw (decodeOpcode_eq_of_cw_eq hcw h) s rest,
    fun h => step_command_congr hcwa (decodeOpcode_eq_of_cw_a_eq hcwa rfl h) s rest⟩

end Sys2Proof
end

section
/-! The one response of a command (30_encoding.md R74, R75): the pseudocode gives none, and each end of
the dispatch gives one. -/

namespace Sys2Proof.Machine

/-! ### The ends of the dispatch in the terms of the statements -/

theorem takeFault_eq_faultedWith (x : Cause) (cw : Word) (s : State) :
    takeFault x cw s = faultedWith s x cw := by
  cases x <;> rfl

theorem refuse_eq_refusedIn (x : Cause) (s : State) : refuse x s = refusedIn s x := by
  cases x <;> rfl

/-! ### What the pseudocode leaves -/

/-- No command's pseudocode touches the responses: they are the dispatch's. -/
theorem MayWrite.responses {i : Instr} {s u : State} (hu : MayWrite i s u) :
    u.responses = s.responses := by
  cases i with
  | sreset =>
    rw [show u = resetCore s from hu]
    rfl
  | _ => rw [show u = _ from hu]

theorem MayWrite.fcause {i : Instr} {s u : State} (hu : MayWrite i s u) :
    u.fcause = s.fcause ∨ i = .sreset := by
  cases i with
  | sreset => exact .inr rfl
  | _ =>
    rw [show u = _ from hu]
    exact .inl rfl

/-! ### The response -/

/-- What becomes of a command from `s` to `t`, as its response says it (30_encoding.md R75). -/
def RespondsOnce (i : Instr) (s t : State) : Prop :=
  ∃ r, t.responses = s.responses ++ [r] ∧
    ((r.status = 0 ∧ (t.fcause = s.fcause ∨ i = .sreset)) ∨
     (∃ x, s.fcause = none ∧ t.fcause = some x ∧ t.finfo = (encode i).cw ∧
        r = ⟨faultStatus x, 0, 0, 0⟩) ∨
     ∃ x, s.fcause = some x ∧ t = refusedIn s x)

/-- A command that completes is answered once, with status 0. -/
theorem MayWrite.respondsOnce_answer {i : Instr} {s u : State} (hu : MayWrite i s u) (d : Data) :
    RespondsOnce i s (u.answer 0 d) :=
  ⟨⟨0, d.d0, d.d1, d.d2⟩, by rw [State.answer_responses, hu.responses], .inl ⟨rfl, hu.fcause⟩⟩

/-- A command that raises is answered once, with its cause. -/
theorem respondsOnce_takeFault {i : Instr} {s u : State} (hn : s.fcause = none)
    (hu : u.responses = s.responses) (x : Cause) : RespondsOnce i s (takeFault x (cwOf i) u) := by
  rw [takeFault_eq_faultedWith]
  exact ⟨_, congrArg (· ++ _) hu, .inr (.inl ⟨x, hn, rfl, rfl, rfl⟩)⟩

theorem respondsOnce_refuse {i : Instr} {s : State} {x : Cause} (hx : s.fcause = some x) :
    RespondsOnce i s (refuse x s) := by
  rw [refuse_eq_refusedIn]
  exact ⟨_, rfl, .inr (.inr ⟨x, hx, rfl⟩)⟩

/-- Settles O9: each way the dispatch ends gives one response, and the pseudocode before it none. -/
theorem eachCommandGivesOneResponse : Obligations.EachCommandGivesOneResponse := by
  intro i s t h
  have hw := pseudocode_mayWrite i s
  rw [exec_eq_runCommand] at h
  generalize pseudocode i s = r at h hw
  rcases runCommand_cases h with ⟨x, hx, rfl⟩ | ⟨x, d, u, -, -, rfl, rfl⟩ | ⟨hn, -, rfl⟩ |
    ⟨hn, -, -, rfl⟩ | ⟨hn, -, -, x, u, rfl, rfl⟩ | ⟨-, -, -, d, u, rfl, rfl⟩
  · exact respondsOnce_refuse hx
  · exact MayWrite.respondsOnce_answer hw d
  · exact respondsOnce_takeFault hn rfl .protocol
  · exact respondsOnce_takeFault hn rfl .contract
  · exact respondsOnce_takeFault hn (MayWrite.responses hw) x
  · exact MayWrite.respondsOnce_answer hw d

end Sys2Proof.Machine
end

section
/-! The system commands (40_system.md R90 to R97): the seven that execute while faulted, the refusal of the
others, and what each of the seven answers. -/

namespace Sys2Proof.Machine

/-! ### The dispatch by its outcome (40_system.md R90) -/

/-- None of the seven has a contract condition (60_exceptions.md R185). -/
theorem contractHolds_of_executesWhileFaulted {i : Instr} (he : executesWhileFaulted i = true)
    (s : State) : contractHolds i s = true := by
  cases i with
  | nop | sreset | rdReg | rdEfreq | rdEcum | rdDfreq | rdDcum => rfl
  | _ => cases he

/-- One of the seven whose protocol condition holds and whose pseudocode completes is answered in every
fault state. -/
theorem exec_answers {i : Instr} {s u : State} {d0 d1 d2 : Word} (he : executesWhileFaulted i = true)
    (hp : protocolHolds i s = true) (hr : pseudocode i s = respond d0 d1 d2 u) :
    exec i s = .next (answered u d0 d1 d2) := by
  have hc := contractHolds_of_executesWhileFaulted he s
  rw [exec_eq_runCommand, hr]
  cases hf : s.fcause with
  | none => rw [runCommand_unfaulted hf hp hc]; rfl
  | some x => simp only [runCommand, runFaulted, hf, he, hp, hc, Bool.and_self, if_true]; rfl

/-- A fault of the pseudocode of an unfaulted command whose conditions hold. -/
theorem exec_raises {i : Instr} {s u : State} {x : Cause} (hn : s.fcause = none)
    (hp : protocolHolds i s = true) (hc : contractHolds i s = true)
    (hr : pseudocode i s = .raised x u) :
    exec i s = .next (faultedWith u x (encode i).cw) := by
  rw [exec_eq_runCommand, runCommand_unfaulted hn hp hc, hr, ← takeFault_eq_faultedWith]
  rfl

/-- A broken protocol condition of an unfaulted command (60_exceptions.md R184). -/
theorem exec_protocol {i : Instr} {s : State} (hn : s.fcause = none)
    (hp : protocolHolds i s = false) :
    exec i s = .next (faultedWith s .protocol (encode i).cw) := by
  rw [exec_eq_runCommand, runCommand, hn, hp, ← takeFault_eq_faultedWith]
  rfl

/-- While faulted, a command that is none of the seven is refused. -/
theorem exec_refused {i : Instr} {s : State} {x : Cause} (hx : s.fcause = some x)
    (he : executesWhileFaulted i = false) : exec i s = .next (refusedIn s x) := by
  rw [exec_eq_runCommand, runCommand_faulted hx he, refuse_eq_refusedIn]

/-- While faulted, a command that would raise PROTOCOL is refused. -/
theorem exec_refused_protocol {i : Instr} {s : State} {x : Cause} (hx : s.fcause = some x)
    (hp : protocolHolds i s = false) : exec i s = .next (refusedIn s x) := by
  rw [exec_eq_runCommand, ← refuse_eq_refusedIn]
  simp [runCommand, runFaulted, hx, hp]

/-- While faulted, a command whose pseudocode would raise is refused. -/
theorem exec_refused_raise {i : Instr} {s u : State} {x y : Cause} (hx : s.fcause = some x)
    (hr : pseudocode i s = .raised y u) : exec i s = .next (refusedIn s x) := by
  rw [exec_eq_runCommand, ← refuse_eq_refusedIn]
  simp [runCommand, runFaulted, hx, hr]

/-! ### The refusal -/

/-- Settles O45: the remaining fourteen do not execute while faulted. -/
theorem faultedBlockRefusesCommands : Obligations.FaultedBlockRefusesCommands := by
  intro i s x hx hnop hsreset hreg hefreq hecum hdfreq hdcum
  refine exec_refused hx ?_
  cases i with
  | nop => exact absurd rfl hnop
  | sreset => exact absurd rfl hsreset
  | rdReg n => exact absurd rfl (hreg n)
  | rdEfreq n => exact absurd rfl (hefreq n)
  | rdEcum n => exact absurd rfl (hecum n)
  | rdDfreq n => exact absurd rfl (hdfreq n)
  | rdDcum n => exact absurd rfl (hdcum n)
  | _ => rfl

/-! ### NOP and SRESET -/

/-- Settles O14: the pseudocode of NOP ends in the state it began in. -/
theorem nopChangesNothing : Obligations.NopChangesNothing :=
  ⟨rfl, fun _ => exec_answers rfl rfl rfl⟩

/-- Settles O13: SRESET executes in every fault state, and every other command of a faulted block leaves
all but the responses. -/
theorem sresetRestoresTheResetState : Obligations.SresetRestoresTheResetState := by
  refine ⟨rfl, fun s => ⟨_, _, _, _, _, exec_answers (u := resetCore s) rfl rfl rfl⟩,
    fun i s t x hi hx h => ?_⟩
  rw [exec_faulted hx hi h]
  exact hx

/-! ### RD_REG -/

/-- The immediate stands in the zero low bits of the opcode's word (30_encoding.md R71). -/
theorem commandWord_eq_or (op imm : Byte) :
    commandWord op imm = commandWord op 0 ||| imm.setWidth 32 := by
  apply BitVec.eq_of_toNat_eq
  have himm : imm.toNat < 2 ^ 24 := imm.isLt.trans (by decide)
  have hmod : imm.toNat % 2 ^ 32 = imm.toNat := Nat.mod_eq_of_lt (imm.isLt.trans (by decide))
  rw [BitVec.toNat_or, toNat_commandWord, toNat_commandWord, BitVec.toNat_setWidth, hmod,
    ← Nat.shiftLeft_eq, Nat.shiftLeft_add_eq_or_of_lt himm]
  rfl

theorem encodeI_eq_or (op imm : Byte) :
    encodeI op imm = ⟨commandWord op 0 ||| imm.setWidth 32, 0, 0, 0⟩ := by
  rw [encodeI, commandWord_eq_or]

/-- The listed register numbers are those RD_REG answers (10_state.md R37). -/
theorem registerValue_eq_none {n : Byte} (s : State)
    (hn : n.toNat ∉
      [0x00, 0x01, 0x02, 0x03, 0x04, 0x05, 0x06, 0x10, 0x11, 0x20, 0x21, 0x22]) :
    registerValue n s = none := by
  unfold registerValue
  split
  case h_13 => rfl
  all_goals
    rename_i h
    exact absurd (h ▸ hn) (by decide)

/-- A listed number answers its register in every fault state (40_system.md R93). -/
theorem exec_rdReg_some {n : Byte} {s : State} {v : Word} (h : registerValue n s = some v) :
    exec (.rdReg n) s = .next (answered s v 0 0) :=
  exec_answers rfl rfl (show readRegister n s = _ by rw [readRegister, h])

theorem readRegister_of_none {n : Byte} {s : State} (h : registerValue n s = none) :
    pseudocode (.rdReg n) s = .raised .illegalCmd s := by
  rw [pseudocode, readRegister, h]

/-- A reserved number raises ILLEGAL_CMD (40_system.md R93). -/
theorem exec_rdReg_none {n : Byte} {s : State} (h : registerValue n s = none) :
    (s.fcause = none →
      exec (.rdReg n) s = .next (faultedWith s .illegalCmd (0x02000000 ||| n.setWidth 32))) ∧
    ∀ x, s.fcause = some x → exec (.rdReg n) s = .next (refusedIn s x) := by
  have hraise := readRegister_of_none h
  refine ⟨fun hn => ?_, fun x hx => exec_refused_raise hx hraise⟩
  rw [exec_raises hn rfl rfl hraise, encode, encodeI_eq_or]
  rfl

theorem fcauseCode_of_none {s : State} (h : s.fcause = none) : fcauseCode s = 0 := by
  rw [fcauseCode, h]

theorem fcauseCode_of_some {s : State} {x : Cause} (h : s.fcause = some x) :
    (fcauseCode s).setWidth 32 = (faultStatus x).setWidth 32 := by
  rw [fcauseCode, h]
  cases x <;> rfl

/-- Settles O15: the listed numbers have a register, the others none. -/
theorem rdRegReadsTheNumberedRegister : Obligations.RdRegReadsTheNumberedRegister := by
  refine ⟨fun n => encodeI_eq_or 0x02 n, fun s =>
    ⟨exec_rdReg_some rfl, fun hn => exec_rdReg_some ?_, fun x hx => exec_rdReg_some ?_,
      exec_rdReg_some rfl, exec_rdReg_some rfl, exec_rdReg_some rfl, exec_rdReg_some rfl,
      exec_rdReg_some rfl, exec_rdReg_some rfl, exec_rdReg_some rfl, exec_rdReg_some rfl,
      exec_rdReg_some rfl, exec_rdReg_some rfl,
      fun n hn => exec_rdReg_none (registerValue_eq_none s hn)⟩⟩
  · show some ((fcauseCode s).setWidth 32) = _
    rw [fcauseCode_of_none hn]
    rfl
  · exact congrArg some (fcauseCode_of_some hx)

/-! ### The table reads -/

theorem readEntry_eq_getD {w : Nat} (t : Table w) (i : Nat) : readEntry t i = t.toList.getD i 0 := by
  rw [readEntry, List.getD_eq_getElem?_getD, Vector.getElem?_toList]
  split
  · rw [Vector.getElem?_eq_getElem ‹_›, Option.getD_some]
  · rw [Vector.getElem?_eq_none (Nat.le_of_not_lt ‹_›), Option.getD_none]

/-- A table read of a readable bank answers the entry in every fault state. -/
theorem exec_tableRead {w : Nat} {i : Instr} {n : Byte} {t : Table w} {s : State}
    (hr : pseudocode i s = respond ((readEntry t n.toNat).setWidth 32) 0 0 s)
    (he : executesWhileFaulted i = true) (hp : protocolHolds i s = true) :
    exec i s = .next (answered s ((t.toList.getD n.toNat 0).setWidth 32) 0 0) := by
  rw [← readEntry_eq_getD]
  exact exec_answers he hp hr

section
variable {s : State} (n : Byte)

/-- When each bank is readable (40_system.md R94 to R97). -/
theorem protocolHolds_rdEfreq : protocolHolds (.rdEfreq n) s = true ↔ s.est ≠ .invalid := bne_iff_ne

theorem protocolHolds_rdEcum : protocolHolds (.rdEcum n) s = true ↔ s.est = .final := beq_iff_eq

theorem protocolHolds_rdDfreq : protocolHolds (.rdDfreq n) s = true ↔ s.dst = .final := beq_iff_eq

theorem protocolHolds_rdDcum : protocolHolds (.rdDcum n) s = true ↔ s.dst = .final := beq_iff_eq

end

/-- Settles O17: each read executes in every fault state, and its protocol condition is that its bank is
readable. -/
theorem tableReadsAnswerTheEntry : Obligations.TableReadsAnswerTheEntry := by
  intro i s
  have hefreq : s.est = .invalid → protocolHolds (.rdEfreq i) s = false := fun h =>
    Bool.eq_false_iff.mpr fun hp => (protocolHolds_rdEfreq i).mp hp h
  have hecum : s.est ≠ .final → protocolHolds (.rdEcum i) s = false := fun h =>
    Bool.eq_false_iff.mpr (mt (protocolHolds_rdEcum i).mp h)
  have hdfreq : s.dst ≠ .final → protocolHolds (.rdDfreq i) s = false := fun h =>
    Bool.eq_false_iff.mpr (mt (protocolHolds_rdDfreq i).mp h)
  have hdcum : s.dst ≠ .final → protocolHolds (.rdDcum i) s = false := fun h =>
    Bool.eq_false_iff.mpr (mt (protocolHolds_rdDcum i).mp h)
  refine ⟨⟨encodeI_eq_or 0x04 i, encodeI_eq_or 0x05 i, encodeI_eq_or 0x06 i, encodeI_eq_or 0x07 i⟩,
    fun h => exec_tableRead rfl rfl ((protocolHolds_rdEfreq i).mpr h),
    fun h => exec_tableRead rfl rfl ((protocolHolds_rdEcum i).mpr h),
    fun h => ⟨exec_tableRead rfl rfl ((protocolHolds_rdDfreq i).mpr h),
      exec_tableRead rfl rfl ((protocolHolds_rdDcum i).mpr h)⟩,
    fun hn => ⟨fun h => exec_protocol hn (hefreq h), fun h => exec_protocol hn (hecum h),
      fun h => ⟨exec_protocol hn (hdfreq h), exec_protocol hn (hdcum h)⟩⟩,
    fun x hx => ⟨fun h => exec_refused_protocol hx (hefreq h),
      fun h => exec_refused_protocol hx (hecum h),
      fun h => ⟨exec_refused_protocol hx (hdfreq h), exec_refused_protocol hx (hdcum h)⟩⟩⟩

end Sys2Proof.Machine
end

section
/-! The builder's histogram (41_model_builder.md R101 to R103): MB_CLEAR, and what MB_COUNT leaves in the
counters and RUNTOT below both triggers and at one. -/

namespace Sys2Proof.Machine

/-! ### The dispatch of a command that completes -/

/-- An unfaulted command whose conditions hold and whose pseudocode completes is answered. -/
theorem exec_completes {i : Instr} {s u : State} {d0 d1 d2 : Word} (hn : s.fcause = none)
    (hp : protocolHolds i s = true) (hc : contractHolds i s = true)
    (hr : pseudocode i s = respond d0 d1 d2 u) : exec i s = .next (answered u d0 d1 d2) := by
  rw [exec_eq_runCommand, runCommand_unfaulted hn hp hc, hr]
  rfl

theorem protocolHolds_mbCount {b : Byte} {s : State} :
    protocolHolds (.mbCount b) s = true ↔ s.est = .counting := beq_iff_eq

/-! ### MB_CLEAR -/

theorem readEntry_replicate {w i : Nat} (v : BitVec w) (hi : i < 256) :
    readEntry (Vector.replicate 256 v) i = v := by
  rw [readEntry_lt _ hi, Vector.getElem_replicate]

/-- MB_CLEAR with no flush owed (41_model_builder.md R101). -/
theorem exec_mbClear {s : State} (hn : s.fcause = none) (hd : s.eDirty = false) :
    exec .mbClear s = .next (answered
      { s with efreq := Vector.replicate 256 0, runtot := 0, est := .counting } 0 0 0) :=
  exec_completes hn (by rw [protocolHolds, hd]; rfl) rfl rfl

/-- Settles O18: the cleared counters are the constant bank, and a flush owed breaks the protocol
condition. -/
theorem mbClearStartsAHistogram : Obligations.MbClearStartsAHistogram :=
  ⟨rfl, fun _ hn =>
    ⟨fun hd => ⟨Vector.replicate 256 0, fun _ hi => readEntry_replicate 0 hi, exec_mbClear hn hd⟩,
      fun hd => exec_protocol hn (by rw [protocolHolds, hd]; rfl)⟩⟩

/-! ### Counters as naturals, and written back -/

theorem getElem_countedEntries (b : Byte) (freq : Table 10) {i : Nat} (hi : i < 256) :
    (countedEntries b freq)[i] = (readEntry freq i).toNat + if i = b.toNat then 1 else 0 := by
  unfold countedEntries
  rw [Vector.getElem_set, getElem_mapEntries]
  by_cases h : i = b.toNat
  · rw [if_pos h.symm, if_pos h, h]
  · rw [if_neg (Ne.symm h), if_neg h, readEntry_lt _ hi, Nat.add_zero]

theorem getElem_countedEntries_le (b : Byte) (freq : Table 10) {i : Nat} (hi : i < 256) :
    (countedEntries b freq)[i] ≤ 1024 := by
  have := (readEntry freq i).isLt
  rw [getElem_countedEntries b freq hi]
  split <;> omega

/-- A counter that fits an entry is written back without loss (00_scope.md R11). -/
theorem toNat_readEntry_ofNat {counts : Vector Nat 256} {i : Nat} (hi : i < 256)
    (h : counts[i] < 1024) :
    (readEntry (mapEntries (BitVec.ofNat 10) counts) i).toNat = counts[i] := by
  rw [readEntry_lt _ hi, getElem_mapEntries, BitVec.toNat_ofNat, Nat.mod_eq_of_lt h]

/-- Counters that fit their entries keep their sum. -/
theorem prefixSum_ofNat {counts : Vector Nat 256} (h : ∀ x ∈ counts.toList, x < 1024) :
    prefixSum (mapEntries (BitVec.ofNat 10) counts) 255 = counts.toList.sum := by
  rw [← sum_toList, toList_mapEntries, List.map_map]
  congr 1
  refine (List.map_congr_left fun x hx => ?_).trans (List.map_id _)
  exact Nat.mod_eq_of_lt (h x hx)

/-! ### MB_COUNT below both triggers -/

/-- Bank E after a count that does not rescale (41_model_builder.md R102). -/
def countedTable (b : Byte) (freq : Table 10) : Table 10 :=
  mapEntries (BitVec.ofNat 10) (countedEntries b freq)

theorem toNat_readEntry_countedTable {b : Byte} {freq : Table 10}
    (hv : (readEntry freq b.toNat).toNat + 1 < 1023) {i : Nat} (hi : i < 256) :
    (readEntry (countedTable b freq) i).toNat =
      (readEntry freq i).toNat + if i = b.toNat then 1 else 0 := by
  have hget := getElem_countedEntries b freq hi
  rw [countedTable, toNat_readEntry_ofNat hi, hget]
  have := (readEntry freq i).isLt
  rw [hget]
  split
  · subst i; omega
  · omega

/-- MB_COUNT below both triggers (41_model_builder.md R102). -/
theorem countSymbol_below {b : Byte} {s : State} (hv : (readEntry s.efreq b.toNat).toNat + 1 < 1023)
    (ht : s.runtot.toNat + 1 < 16384) :
    countSymbol b s = respond 0 (BitVec.ofNat 32 (s.runtot.toNat + 1)) 0
      (s.setHistogram (countedTable b s.efreq) (BitVec.ofNat 15 (s.runtot.toNat + 1))) := by
  have hno : ¬((readEntry s.efreq b.toNat).toNat + 1 ≥ Config.fcap ∨
      s.runtot.toNat + 1 ≥ Config.ceil) := by
    unfold Config.fcap Config.ceil
    omega
  have hword : (BitVec.ofNat 15 (s.runtot.toNat + 1)).setWidth 32 =
      BitVec.ofNat 32 (s.runtot.toNat + 1) := by
    apply BitVec.eq_of_toNat_eq
    rw [BitVec.toNat_setWidth, BitVec.toNat_ofNat, BitVec.toNat_ofNat]
    omega
  unfold countSymbol
  simp only [if_neg hno, State.setHistogram_runtot, hword]
  rfl

/-- Settles O19: no counter overflows below the triggers. -/
theorem mbCountIncrementsOneCounter : Obligations.MbCountIncrementsOneCounter := fun b s hn hest hv ht =>
  ⟨countedTable b s.efreq, fun _ hi => toNat_readEntry_countedTable hv hi,
    exec_completes hn (protocolHolds_mbCount.mpr hest) rfl (countSymbol_below hv ht)⟩

/-! ### MB_COUNT at a trigger -/

/-- The counters a rescale leaves (41_model_builder.md R103). -/
def halvedEntries (b : Byte) (freq : Table 10) : Vector Nat 256 :=
  mapEntries halve (countedEntries b freq)

/-- Bank E after a count that rescales (41_model_builder.md R102, R103). -/
def rescaledTable (b : Byte) (freq : Table 10) : Table 10 :=
  mapEntries (BitVec.ofNat 10) (halvedEntries b freq)

theorem getElem_halvedEntries (b : Byte) (freq : Table 10) {i : Nat} (hi : i < 256) :
    (halvedEntries b freq)[i] =
      halve ((readEntry freq i).toNat + if i = b.toNat then 1 else 0) := by
  rw [halvedEntries, getElem_mapEntries, getElem_countedEntries b freq hi]

/-- From every state a halved counter fits its entry. -/
theorem getElem_halvedEntries_lt (b : Byte) (freq : Table 10) {i : Nat} (hi : i < 256) :
    (halvedEntries b freq)[i] < 1024 := by
  have hle := two_mul_halve_le (countedEntries b freq)[i]
  have hcount := getElem_countedEntries_le b freq hi
  rw [halvedEntries, getElem_mapEntries]
  omega

theorem toNat_readEntry_rescaledTable (b : Byte) (freq : Table 10) {i : Nat} (hi : i < 256) :
    (readEntry (rescaledTable b freq) i).toNat =
      halve ((readEntry freq i).toNat + if i = b.toNat then 1 else 0) := by
  rw [rescaledTable, toNat_readEntry_ofNat hi (getElem_halvedEntries_lt b freq hi),
    getElem_halvedEntries b freq hi]

/-- The sum a rescale computes is the sum of what it writes. -/
theorem prefixSum_rescaledTable (b : Byte) (freq : Table 10) :
    prefixSum (rescaledTable b freq) 255 = (halvedEntries b freq).toList.sum := by
  refine prefixSum_ofNat fun x hx => ?_
  obtain ⟨i, hi, rfl⟩ := List.mem_iff_getElem.mp hx
  rw [Vector.length_toList] at hi
  exact getElem_halvedEntries_lt b freq hi

/-- MB_COUNT at a trigger (41_model_builder.md R102, R103). -/
theorem countSymbol_rescales {b : Byte} {s : State}
    (h : 1023 ≤ (readEntry s.efreq b.toNat).toNat + 1 ∨ 16384 ≤ s.runtot.toNat + 1) :
    countSymbol b s =
      respond 1 ((BitVec.ofNat 15 (prefixSum (rescaledTable b s.efreq) 255)).setWidth 32) 0
        (s.setHistogram (rescaledTable b s.efreq)
          (BitVec.ofNat 15 (prefixSum (rescaledTable b s.efreq) 255))) := by
  have hyes : (readEntry s.efreq b.toNat).toNat + 1 ≥ Config.fcap ∨
      s.runtot.toNat + 1 ≥ Config.ceil := h
  rw [prefixSum_rescaledTable]
  unfold countSymbol
  simp only [if_pos hyes]
  rfl

theorem exec_mbCount_rescales {b : Byte} {s : State} (hn : s.fcause = none) (hest : s.est = .counting)
    (h : 1023 ≤ (readEntry s.efreq b.toNat).toNat + 1 ∨ 16384 ≤ s.runtot.toNat + 1) :
    exec (.mbCount b) s = .next (answered
      { s with
        efreq := rescaledTable b s.efreq,
        runtot := BitVec.ofNat 15 (prefixSum (rescaledTable b s.efreq) 255) }
      1 ((BitVec.ofNat 15 (prefixSum (rescaledTable b s.efreq) 255)).setWidth 32) 0) :=
  exec_completes hn (protocolHolds_mbCount.mpr hest) rfl (countSymbol_rescales h)

/-- Settles O20: a halved counter always fits its entry. -/
theorem mbCountRescalesAtATrigger : Obligations.MbCountRescalesAtATrigger := by
  intro b s hn hest h
  refine ⟨rescaledTable b s.efreq, fun i hi v hv => ?_, exec_mbCount_rescales hn hest h⟩
  rw [hv, toNat_readEntry_rescaledTable b s.efreq hi, halve]

/-! ### The consequences of a rescale (41_model_builder.md R103) -/

theorem halve_eq_zero_iff {v : Nat} : halve v = 0 ↔ v = 0 := by
  unfold halve
  split <;> omega

theorem eq_zero_iff_toNat {w : Nat} {v : BitVec w} : v = 0 ↔ v.toNat = 0 := BitVec.toNat_eq

/-- A count takes exactly the counted symbol away from the unused ones. -/
theorem count_eq_zero_iff {v : BitVec 10} {i j : Nat} :
    (v.toNat + if i = j then 1 else 0) = 0 ↔ v = 0 ∧ i ≠ j := by
  rw [eq_zero_iff_toNat]
  split <;> omega

/-- A rescale starves no symbol. -/
theorem readEntry_rescaledTable_eq_zero_iff (b : Byte) (freq : Table 10) {i : Nat} (hi : i < 256) :
    readEntry (rescaledTable b freq) i = 0 ↔ readEntry freq i = 0 ∧ i ≠ b.toNat := by
  rw [eq_zero_iff_toNat, toNat_readEntry_rescaledTable b freq hi, halve_eq_zero_iff,
    count_eq_zero_iff]

/-- A rescale at most halves the sum, give or take half a unit for each counter. -/
theorem two_mul_prefixSum_rescaledTable_le (b : Byte) (freq : Table 10) :
    2 * prefixSum (rescaledTable b freq) 255 ≤ prefixSum freq 255 + 257 := by
  have hhalf := two_mul_sum_halve_le (countedEntries b freq).toList
  rw [sum_countedEntries, Vector.length_toList] at hhalf
  rw [prefixSum_rescaledTable, halvedEntries, toList_mapEntries]
  omega

theorem readEntry_le_prefixSum (freq : Table 10) {i : Nat} (hi : i < 256) :
    (readEntry freq i).toNat ≤ prefixSum freq 255 := by
  refine le_trans ?_ (prefixSum_mono freq (i := i) (by omega) (by omega))
  cases i with
  | zero => rw [prefixSum_zero]
  | succ i =>
    rw [prefixSum_succ freq hi]
    exact Nat.le_add_left _ _

/-- Settles O21: at a trigger the total is at least 1022, which a rescale more than makes smaller. -/
theorem rescaleStarvesNoSymbolAndShrinksTheTotal :
    Obligations.RescaleStarvesNoSymbolAndShrinksTheTotal := by
  intro b s t hinv hn hest htrigger h
  rw [exec_mbCount_rescales hn hest htrigger] at h
  cases h
  obtain ⟨-, hsides⟩ := hinv
  obtain ⟨⟨-, hcounting, -⟩, -⟩ := hsides hn
  obtain ⟨htotal, hle, -⟩ := hcounting hest
  have hentry := readEntry_le_prefixSum s.efreq b.isLt
  have hhalf := two_mul_prefixSum_rescaledTable_le b s.efreq
  have hfits : (BitVec.ofNat 15 (prefixSum (rescaledTable b s.efreq) 255)).toNat =
      prefixSum (rescaledTable b s.efreq) 255 := by
    rw [BitVec.toNat_ofNat]
    omega
  refine ⟨fun i hi => readEntry_rescaledTable_eq_zero_iff b s.efreq hi, hfits, ?_, ?_⟩
  · show BitVec.toNat (BitVec.ofNat 15 _) < _
    omega
  · show BitVec.toNat (BitVec.ofNat 15 _) ≤ _
    omega

end Sys2Proof.Machine
end

section
/-! The final model and its header (41_model_builder.md R104 to R108): what MB_FINAL and HDR_WRITE write,
and the loop of HDR_READ as a bank and a position that follow from how many entries it has read. -/

namespace Sys2Proof.Machine

/-! ### MB_FINAL -/

theorem protocolHolds_mbFinal {s : State} :
    protocolHolds .mbFinal s = true ↔ s.est = .counting := beq_iff_eq

theorem exec_mbFinal {s : State} (hn : s.fcause = none) (hest : s.est = .counting) :
    exec .mbFinal s = .next (answered
      { s with ecum := (buildCum s.efreq).1, eTotal := (buildCum s.efreq).2, est := .final }
      ((buildCum s.efreq).2.setWidth 32) 0 0) :=
  exec_completes hn (protocolHolds_mbFinal.mpr hest) rfl rfl

/-- A symbol of frequency 0 is one whose interval is empty (41_model_builder.md R105). -/
theorem ModelOk.readEntry_eq_zero_iff {freq : Table 10} {cum : Table 18} {total : BitVec 18}
    (h : ModelOk freq cum total) {i : Nat} (hi : i < 256) :
    readEntry freq i = 0 ↔ (readEntry cum i).toNat = startOf cum i := by
  obtain ⟨hcum, -⟩ := h
  rw [eq_zero_iff_toNat, hcum i hi]
  cases i with
  | zero => rw [prefixSum_zero, startOf, if_pos rfl]
  | succ i =>
    rw [prefixSum_succ freq hi, startOf, if_neg (Nat.succ_ne_zero i), Nat.add_sub_cancel,
      hcum i (by omega)]
    omega

/-- Settles O22: the cumulative table and total of MB_FINAL are BuildCum's. -/
theorem mbFinalBuildsThePrefixSums : Obligations.MbFinalBuildsThePrefixSums := by
  refine ⟨rfl, fun s hn => ⟨fun hest => ?_, fun hest => exec_protocol hn ?_⟩⟩
  · have hmodel := modelOk_buildCum s.efreq
    exact ⟨(buildCum s.efreq).1, (buildCum s.efreq).2, hmodel.1, hmodel.2,
      fun i hi => hmodel.mono (Nat.le_succ i) (by omega), fun i hi => hmodel.readEntry_eq_zero_iff hi,
      exec_mbFinal hn hest⟩
  · exact Bool.eq_false_iff.mpr (mt protocolHolds_mbFinal.mp hest)

/-! ### HDR_WRITE -/

/-- The i-th of equally long pieces, in the pieces put together. -/
theorem take_drop_flatMap {α β : Type} {f : α → List β} {n : Nat} (hf : ∀ x, (f x).length = n)
    (l : List α) {i : Nat} (hi : i < l.length) :
    ((l.flatMap f).drop (n * i)).take n = f l[i] := by
  induction l generalizing i with
  | nil => cases hi
  | cons x l ih =>
    rw [List.flatMap_cons]
    cases i with
    | zero => rw [Nat.mul_zero, List.drop_zero, ← hf x, List.take_left, List.getElem_cons_zero]
    | succ i =>
      rw [Nat.mul_succ, Nat.add_comm, ← List.drop_drop, ← hf x, List.drop_left, hf x,
        ih (Nat.lt_of_succ_lt_succ hi), List.getElem_cons_succ]

theorem length_headerBits (freq : Table 10) : (headerBits freq).length = 2560 := by
  simp only [headerBits, List.length_flatMap, length_bitsMsbFirst, List.map_const', List.sum_replicate,
    Vector.length_toList]
  rfl

/-- The ten bits of entry i in a header (30_encoding.md R83). -/
theorem take_drop_headerBits (freq : Table 10) {i : Nat} (hi : i < 256) :
    ((headerBits freq).drop (10 * i)).take 10 = bitsMsbFirst 10 (readEntry freq i).toNat := by
  have hlen : i < freq.toList.length := by simpa using hi
  rw [headerBits, take_drop_flatMap (fun _ => length_bitsMsbFirst _ _) _ hlen, readEntry_lt _ hi,
    Vector.getElem_toList]

theorem getElem?_headerBits (freq : Table 10) {i k : Nat} (hi : i < 256) (hk : k < 10) :
    (headerBits freq)[10 * i + k]? = some ((readEntry freq i).toNat.testBit (9 - k)) := by
  rw [← List.getElem?_drop, ← List.getElem?_take_of_lt hk, take_drop_headerBits freq hi,
    getElem?_bitsMsbFirst _ hk]

theorem protocolHolds_hdrWrite {s : State} :
    protocolHolds .hdrWrite s = true ↔ s.est = .final ∧ s.eDirty = false := by
  simp [protocolHolds]

/-- HDR_WRITE of a final model with no flush owed (41_model_builder.md R106). -/
theorem exec_hdrWrite {s : State} (hn : s.fcause = none) (hest : s.est = .final)
    (hd : s.eDirty = false) :
    exec .hdrWrite s = .next (answered { s with out := s.out ++ headerBits s.efreq } 0 0 0) := by
  refine exec_completes hn (protocolHolds_hdrWrite.mpr ⟨hest, hd⟩) rfl ?_
  show respond 0 0 0 (pushEntries s.efreq.toList s) = _
  rw [pushEntries_eq]
  rfl

/-- Settles O23: the appended bits are the header of EFREQ. -/
theorem hdrWriteAppendsTheHeader : Obligations.HdrWriteAppendsTheHeader := by
  refine ⟨rfl, fun s hn => ⟨fun hest hd => ?_, fun hbroken => exec_protocol hn ?_⟩⟩
  · exact ⟨headerBits s.efreq, length_headerBits s.efreq,
      fun i hi k hk => getElem?_headerBits s.efreq hi hk, exec_hdrWrite hn hest hd⟩
  · rw [Bool.eq_false_iff, Ne, protocolHolds_hdrWrite]
    rintro ⟨hest, hd⟩
    rw [hd] at hbroken
    exact hbroken.elim (absurd hest) nofun

/-! ### The loop of HDR_READ -/

/-- Entry i of a header that begins a bit sequence (30_encoding.md R83). -/
def headerEntry (bits : List Bool) (i : Nat) : BitVec 10 :=
  BitVec.ofNat 10 (natOfBits ((bits.drop (10 * i)).take 10))

/-- Bank D when its first n entries have been read from a header and the others are as in `old`. -/
def headerTable (bits : List Bool) (old : Table 10) (n : Nat) : Table 10 :=
  tableOf fun i => if i < n then headerEntry bits i else readEntry old i

theorem toNat_headerEntry (bits : List Bool) (i : Nat) :
    (headerEntry bits i).toNat = natOfBits ((bits.drop (10 * i)).take 10) := by
  have hlt := natOfBits_lt ((bits.drop (10 * i)).take 10)
  have hlen : ((bits.drop (10 * i)).take 10).length ≤ 10 := List.length_take_le _ _
  rw [headerEntry, BitVec.toNat_ofNat, Nat.mod_eq_of_lt]
  exact hlt.trans_le (Nat.pow_le_pow_right (by decide) hlen)

theorem readEntry_headerTable (bits : List Bool) (old : Table 10) (n : Nat) {i : Nat} (hi : i < 256) :
    readEntry (headerTable bits old n) i =
      if i < n then headerEntry bits i else readEntry old i :=
  readEntry_tableOf _ i hi

theorem headerTable_zero (bits : List Bool) (old : Table 10) : headerTable bits old 0 = old :=
  table_ext fun i hi => by rw [readEntry_headerTable _ _ _ hi, if_neg (Nat.not_lt_zero i)]

theorem headerTable_succ (bits : List Bool) (old : Table 10) {n : Nat} (hn : n < 256) :
    writeEntry (headerTable bits old n) n (headerEntry bits n) = headerTable bits old (n + 1) := by
  refine table_ext fun i hi => ?_
  rw [readEntry_writeEntry _ _ _ _ hn, readEntry_headerTable _ _ _ hi, readEntry_headerTable _ _ _ hi]
  rcases Nat.lt_trichotomy i n with h | rfl | h
  · rw [if_neg h.ne, if_pos h, if_pos (by omega)]
  · rw [if_pos rfl, if_pos (Nat.lt_succ_self i)]
  · rw [if_neg h.ne', if_neg (by omega), if_neg (by omega)]

/-- `s` when HDR_READ's loop has read n entries: DFREQ and SRCPOS, nothing else. -/
def headerRead (s : State) (n : Nat) : State :=
  { s with dfreq := headerTable (unread s) s.dfreq n, srcpos := s.srcpos + 10 * n }

theorem headerRead_zero (s : State) : headerRead s 0 = s := by
  rw [headerRead, headerTable_zero]
  rfl

theorem bitsLeft_headerRead (s : State) (n : Nat) :
    bitsLeft (headerRead s n) = (unread s).length - 10 * n := by
  rw [unread, List.length_drop]
  exact Nat.sub_add_eq _ _ _

/-- One iteration: the ten bits after n entries are entry n. -/
theorem headerRead_succ (s : State) {n : Nat} (hn : n < 256) :
    ((headerRead s n).advance 10).setDFreq (writeEntry (headerRead s n).dfreq n
      (BitVec.ofNat 10 (natOfBits (((headerRead s n).src.drop (headerRead s n).srcpos).take 10)))) =
      headerRead s (n + 1) := by
  have hentry : BitVec.ofNat 10
      (natOfBits (((headerRead s n).src.drop (headerRead s n).srcpos).take 10)) =
      headerEntry (unread s) n := by
    rw [headerEntry, unread, List.drop_drop]
    rfl
  rw [hentry, headerRead, headerRead, ← headerTable_succ (unread s) s.dfreq hn]
  rfl

/-- The loop from entry n on: to its end when a whole header is left, and to the last whole entry
otherwise (41_model_builder.md R107). -/
theorem readEntries_headerRead {k n : Nat} (s : State) (hkn : n + k = 256)
    (hn : 10 * n ≤ (unread s).length) :
    readEntries k (headerRead s n) =
      if 2560 ≤ (unread s).length then .ok () (headerRead s 256)
      else .raised .srcUnderflow (headerRead s ((unread s).length / 10)) := by
  induction k generalizing n with
  | zero =>
    obtain rfl : n = 256 := hkn
    rw [if_pos hn]
    rfl
  | succ k ih =>
    rw [readEntries]
    rcases pop_cases 10 (headerRead s n) with ⟨hshort, hpop⟩ | ⟨hle, hpop⟩
    · rw [bitsLeft_headerRead] at hshort
      have hlast : (unread s).length / 10 = n := by omega
      rw [hpop, Res.bind_raised, if_neg (by omega), hlast]
    · rw [bitsLeft_headerRead] at hle
      have hindex : 255 - k = n := by omega
      rw [hpop, Res.bind_ok, State.advance_dfreq, hindex, headerRead_succ s (by omega)]
      exact ih (by omega) (by omega)

/-! ### HDR_READ -/

/-- HDR_READ's loop, from its first entry on. -/
theorem readEntries_all (s : State) :
    readEntries 256 s =
      if 2560 ≤ (unread s).length then .ok () (headerRead s 256)
      else .raised .srcUnderflow (headerRead s ((unread s).length / 10)) := by
  have h := readEntries_headerRead (k := 256) (n := 0) s rfl (Nat.zero_le _)
  rwa [headerRead_zero] at h

/-- The frequency table a header in the source's next 2560 bits gives. -/
def readTable (s : State) : Table 10 := headerTable (unread s) s.dfreq 256

theorem toNat_readEntry_readTable (s : State) {i : Nat} (hi : i < 256) :
    (readEntry (readTable s) i).toNat = natOfBits (((unread s).drop (10 * i)).take 10) := by
  rw [readTable, readEntry_headerTable _ _ _ hi, if_pos hi, toNat_headerEntry]

/-- `s` when a whole header is read: bank D, its model, DST = `x`, DCS and SRCPOS, nothing else. -/
def modelRead (s : State) (x : DState) : State :=
  { s with
    dfreq := readTable s, dcum := (buildCum (readTable s)).1, dTotal := (buildCum (readTable s)).2,
    dst := x, dcs := .uninit, srcpos := s.srcpos + 2560 }

@[simp] theorem answered_fcause (s : State) (d0 d1 d2 : Word) :
    (answered s d0 d1 d2).fcause = s.fcause := rfl

@[simp] theorem modelRead_fcause (s : State) (x : DState) : (modelRead s x).fcause = s.fcause := by
  rw [modelRead]

@[simp] theorem unread_answered (s : State) (d0 d1 d2 : Word) :
    unread (answered s d0 d1 d2) = unread s := rfl

@[simp] theorem unread_modelRead (s : State) (x : DState) :
    unread (modelRead s x) = (unread s).drop 2560 := by
  rw [unread, unread, List.drop_drop, modelRead]

/-- HDR_READ of a whole header: the total decides between its two ends (41_model_builder.md R107). -/
theorem readHeader_whole {s : State} (hlen : 2560 ≤ (unread s).length) :
    readHeader s =
      if (buildCum (readTable s)).2.toNat ≥ Config.maxTotal then
        .raised .modelRange (modelRead s .invalid)
      else respond ((buildCum (readTable s)).2.setWidth 32) 0 0 (modelRead s .final) := by
  have hloop : readEntries 256 ((s.setDst .invalid).setDcs .uninit) = _ :=
    (readEntries_all _).trans (if_pos hlen)
  have htable : (headerRead ((s.setDst .invalid).setDcs .uninit) 256).dfreq = readTable s := rfl
  rw [readHeader, hloop, Res.bind_ok, htable]
  unfold modelRead
  generalize buildCum (readTable s) = model
  rfl

/-- HDR_READ of less than a header (60_exceptions.md R186, R192). -/
theorem readHeader_short {s : State} (hlen : (unread s).length < 2560) :
    readHeader s = .raised .srcUnderflow
      (headerRead ((s.setDst .invalid).setDcs .uninit) ((unread s).length / 10)) := by
  have hloop : readEntries 256 ((s.setDst .invalid).setDcs .uninit) = _ :=
    (readEntries_all _).trans (if_neg (Nat.not_le_of_lt hlen))
  rw [readHeader, hloop]
  rfl

section
variable {s : State} (hn : s.fcause = none)
include hn

theorem exec_hdrRead_final (hlen : 2560 ≤ (unread s).length)
    (htotal : (buildCum (readTable s)).2.toNat < Config.maxTotal) :
    exec .hdrRead s = .next (answered (modelRead s .final)
      ((buildCum (readTable s)).2.setWidth 32) 0 0) :=
  exec_completes hn rfl rfl ((readHeader_whole hlen).trans (if_neg (Nat.not_le_of_lt htotal)))

/-- A total that is no model's (60_exceptions.md R188). -/
theorem exec_hdrRead_modelRange (hlen : 2560 ≤ (unread s).length)
    (htotal : Config.maxTotal ≤ (buildCum (readTable s)).2.toNat) :
    exec .hdrRead s = .next (faultedWith (modelRead s .invalid) .modelRange 0x14000000) :=
  exec_raises hn rfl rfl ((readHeader_whole hlen).trans (if_pos htotal))

theorem exec_hdrRead_underflow (hlen : (unread s).length < 2560) :
    exec .hdrRead s = .next (faultedWith
      (headerRead ((s.setDst .invalid).setDcs .uninit) ((unread s).length / 10))
      .srcUnderflow 0x14000000) :=
  exec_raises hn rfl rfl (readHeader_short hlen)

end

/-- Settles O24: the loop reads its 256 entries, and the total decides between the two ends. -/
theorem hdrReadRebuildsTheModel : Obligations.HdrReadRebuildsTheModel := by
  intro s hn hlen
  obtain ⟨hcum, htotal⟩ := modelOk_buildCum (readTable s)
  exact ⟨readTable s, (buildCum (readTable s)).1, (buildCum (readTable s)).2,
    fun i hi => toNat_readEntry_readTable s hi, hcum, htotal, exec_hdrRead_final hn hlen,
    exec_hdrRead_modelRange hn hlen⟩

/-- Settles O25: the loop ends at the first entry that is not whole. -/
theorem hdrReadUnderflowLeavesThePrefix : Obligations.HdrReadUnderflowLeavesThePrefix := by
  intro s hn hlen
  refine ⟨headerTable (unread s) s.dfreq ((unread s).length / 10), fun i hi => ?_, fun i hi hle => ?_,
    exec_hdrRead_underflow hn hlen⟩
  · rw [readEntry_headerTable _ _ _ (by omega), if_pos hi, toNat_headerEntry]
  · rw [readEntry_headerTable _ _ _ hi, if_neg (Nat.not_lt_of_le hle)]

/-! ### Header fidelity (41_model_builder.md R108) -/

/-- A header read back is the table it was written from. -/
theorem headerTable_headerBits (freq old : Table 10) (rest : List Bool) :
    headerTable (headerBits freq ++ rest) old 256 = freq := by
  refine table_ext fun i hi => BitVec.eq_of_toNat_eq ?_
  have hlen := length_headerBits freq
  have hdrop : 10 ≤ ((headerBits freq).drop (10 * i)).length := by
    rw [List.length_drop]
    omega
  rw [readEntry_headerTable _ _ _ hi, if_pos hi, toNat_headerEntry,
    List.drop_append_of_le_length (by omega), List.take_append_of_le_length hdrop,
    take_drop_headerBits freq hi, natOfBits_bitsMsbFirst, Nat.mod_eq_of_lt (BitVec.isLt _)]

/-- A frequency table has one model (41_model_builder.md R105). -/
theorem ModelOk.eq_buildCum {freq : Table 10} {cum : Table 18} {total : BitVec 18}
    (h : ModelOk freq cum total) : buildCum freq = (cum, total) := by
  obtain ⟨hcum, htotal⟩ := h
  refine Prod.ext (table_ext fun i hi => BitVec.eq_of_toNat_eq ?_) (BitVec.eq_of_toNat_eq ?_)
  · rw [readEntry_buildCum freq hi, hcum i hi]
  · rw [buildCum_total, htotal, hcum 255 (by omega)]

/-- Settles O26: the reader's table is the writer's, so is the model built from it, and its total is at
most CEIL. -/
theorem headerReadsBackTheTables : Obligations.HeaderReadsBackTheTables := by
  intro s t u bits rest hinv hs hest hd hwrite hout hu hsource
  obtain ⟨-, hsides⟩ := hinv
  obtain ⟨⟨-, -, hfinal⟩, -⟩ := hsides hs
  obtain ⟨hmodel, hceil, -⟩ := hfinal hest
  rw [exec_hdrWrite hs hest hd] at hwrite
  cases hwrite
  obtain rfl : headerBits s.efreq = bits := List.append_cancel_left hout
  have htable : readTable u = s.efreq := by
    rw [readTable, hsource, headerTable_headerBits]
  have hcum : buildCum (readTable u) = (s.ecum, s.eTotal) := htable ▸ hmodel.eq_buildCum
  have hlen : 2560 ≤ (unread u).length := by
    rw [hsource, List.length_append, length_headerBits]
    omega
  have htotal : (buildCum (readTable u)).2.toNat < Config.maxTotal := by
    rw [hcum]
    exact hceil.trans_lt (by decide)
  refine ⟨_, exec_hdrRead_final hu hlen htotal, by simpa using hu, rfl, htable,
    congrArg Prod.fst hcum, congrArg Prod.snd hcum, ?_⟩
  rw [unread_answered, unread_modelRead, hsource, List.drop_left' (length_headerBits s.efreq)]

end Sys2Proof.Machine
end

section
/-! Command sequences of the host as runs of the machine, and the run that builds a model
(41_model_builder.md R100, R109). -/

namespace Sys2Proof.Machine

/-! ### Runs of presented commands -/

/-- No command touches the host's queue. -/
theorem MayWrite.inputs {i : Instr} {s u : State} (hu : MayWrite i s u) : u.inputs = s.inputs := by
  cases i with
  | sreset =>
    rw [show u = resetCore s from hu]
    rfl
  | _ => rw [show u = _ from hu]

theorem exec_inputs {i : Instr} {s t : State} (h : exec i s = .next t) : t.inputs = s.inputs :=
  exec_all (P := fun u => u.inputs = s.inputs) (fun _ _ _ _ hu => hu) rfl
    ((pseudocode_mayWrite i s).mono fun _ hu => hu.inputs) h

/-- A presented command is executed on the block with the command off the queue. -/
theorem step_command {i : Instr} {s t : State} {rest : List HostEvent}
    (hin : s.inputs = .command (encode i) :: rest) (h : exec i (s.setInputs rest) = .next t) :
    step s = .next t ∧ t.inputs = rest :=
  ⟨(stepRunsTheDecodedCommand s (encode i) i rest hin (decodeOfEncodeIsIdentity i)).trans h,
    exec_inputs h⟩

theorem runSteps_succ {s t : State} (k : Nat) (h : step s = .next t) :
    runSteps (k + 1) s = runSteps k t := by
  rw [runSteps, h]

/-- A run goes on from where its first part ends. -/
theorem runSteps_add {j : Nat} {s t : State} (k : Nat) (h : runSteps j s = .next t) :
    runSteps (j + k) s = runSteps k t := by
  induction j generalizing s with
  | zero =>
    cases h
    rw [Nat.zero_add]
  | succ j ih =>
    rw [runSteps] at h
    split at h
    · rename_i u hu
      rw [Nat.add_right_comm, runSteps_succ _ hu, ih h]
    · cases h
    · cases h

/-! ### The counting run -/

/-- A block whose histogram is that of the bytes counted so far (41_model_builder.md R109). -/
structure Counted (S : List Byte) (s : State) : Prop where
  fcause : s.fcause = none
  est : s.est = .counting
  histogram : HistogramOk s.efreq s.runtot
  unused : ∀ b : Byte, readEntry s.efreq b.toNat = 0 ↔ b ∉ S

/-- A block with no flush owed begins with the empty histogram. -/
theorem exec_mbClear_counted {s : State} (hn : s.fcause = none) (hd : s.eDirty = false) :
    ∃ t, exec .mbClear s = .next t ∧ Counted [] t :=
  ⟨_, exec_mbClear hn hd, hn, rfl, histogramOk_zero,
    fun b => iff_of_true (readEntry_replicate 0 b.isLt) List.not_mem_nil⟩

/-- MB_COUNT completes and makes one symbol a used one, with a rescale and without. -/
theorem countSymbol_unused (b : Byte) (s : State) :
    ∃ d u, countSymbol b s = .ok d u ∧ ∀ i < 256,
      (readEntry u.efreq i = 0 ↔ readEntry s.efreq i = 0 ∧ i ≠ b.toNat) := by
  by_cases htrigger : 1023 ≤ (readEntry s.efreq b.toNat).toNat + 1 ∨ 16384 ≤ s.runtot.toNat + 1
  · exact ⟨_, _, countSymbol_rescales htrigger, fun i hi =>
      readEntry_rescaledTable_eq_zero_iff b s.efreq hi⟩
  · have hv : (readEntry s.efreq b.toNat).toNat + 1 < 1023 := by omega
    refine ⟨_, _, countSymbol_below hv (by omega), fun i hi => ?_⟩
    rw [State.setHistogram_efreq, eq_zero_iff_toNat, toNat_readEntry_countedTable hv hi,
      count_eq_zero_iff]

theorem Counted.exec_mbCount {S : List Byte} {s : State} (h : Counted S s) (b : Byte) :
    ∃ t, exec (.mbCount b) s = .next t ∧ Counted (S ++ [b]) t := by
  obtain ⟨hn, hest, hhist, hunused⟩ := h
  obtain ⟨d, u, hr, hzero⟩ := countSymbol_unused b s
  have hw := pseudocode_mayWrite (.mbCount b) s
  have hkept := countSymbol_histogramOk hhist hr
  rw [show pseudocode (.mbCount b) s = .ok d u from hr, Res.all_ok] at hw
  refine ⟨_, exec_completes hn (protocolHolds_mbCount.mpr hest) rfl hr, ?_, ?_, hkept, fun c => ?_⟩
  · rw [show u = _ from hw]
    exact hn
  · rw [show u = _ from hw]
    exact hest
  · have hne : c.toNat ≠ b.toNat ↔ c ≠ b := BitVec.toNat_inj.not
    show readEntry u.efreq c.toNat = 0 ↔ _
    rw [hzero _ c.isLt, hunused c, hne, List.mem_append, List.mem_singleton, not_or]

theorem Counted.setInputs {S : List Byte} {s : State} (h : Counted S s) (l : List HostEvent) :
    Counted S (s.setInputs l) :=
  ⟨h.fcause, h.est, h.histogram, h.unused⟩

/-- The run of MB_COUNT over a list of bytes. -/
theorem runSteps_mbCount (S : List Byte) {P : List Byte} {s : State} {rest : List HostEvent}
    (h : Counted P s)
    (hin : s.inputs = (S.map fun b => .command (encode (.mbCount b))) ++ rest) :
    ∃ t, runSteps S.length s = .next t ∧ Counted (P ++ S) t ∧ t.inputs = rest := by
  induction S generalizing P s with
  | nil => exact ⟨s, rfl, by rwa [List.append_nil], hin⟩
  | cons b S ih =>
    rw [List.map_cons, List.cons_append] at hin
    obtain ⟨t, ht, hcounted⟩ := (h.setInputs _).exec_mbCount b
    obtain ⟨hstep, hqueue⟩ := step_command hin ht
    obtain ⟨u, hu, hcounted', hrest⟩ := ih hcounted hqueue
    rw [List.append_assoc] at hcounted'
    exact ⟨u, (runSteps_succ _ hstep).trans hu, hcounted', hrest⟩

/-- The run of MB_CLEAR and MB_COUNT over the bytes of an input. -/
theorem runSteps_histogram (S : List Byte) {s : State} {rest : List HostEvent}
    (hn : s.fcause = none) (hd : s.eDirty = false)
    (hin : s.inputs =
      .command (encode .mbClear) :: ((S.map fun b => .command (encode (.mbCount b))) ++ rest)) :
    ∃ t, runSteps (S.length + 1) s = .next t ∧ Counted S t ∧ t.inputs = rest := by
  obtain ⟨t, ht, hempty⟩ := exec_mbClear_counted (s := s.setInputs (_ ++ rest)) hn hd
  obtain ⟨hclear, hqueue⟩ := step_command hin ht
  obtain ⟨u, hu, hcounted, hrest⟩ := runSteps_mbCount S hempty hqueue
  exact ⟨u, (runSteps_succ _ hclear).trans hu, hcounted, hrest⟩

/-- Settles O27: the histogram of the whole input, and MB_FINAL's model of it. -/
theorem countedBytesHaveFrequencies : Obligations.CountedBytesHaveFrequencies := by
  intro S s hn hd
  have hin : (presenting ([.mbClear] ++ S.map .mbCount ++ [.mbFinal]) s).inputs =
      .command (encode .mbClear) :: ((S.map fun b => .command (encode (.mbCount b))) ++
        [.command (encode .mbFinal)]) := by
    simp [presenting]
  obtain ⟨u, hrun, hcounted, hlast⟩ :=
    runSteps_histogram S (s := presenting _ s) hn hd hin
  obtain ⟨hnone, hest, ⟨htotal, hle, hmax⟩, hunused⟩ := hcounted
  obtain ⟨hfinal, -⟩ := step_command hlast (exec_mbFinal (s := u.setInputs []) hnone hest)
  refine ⟨_, (runSteps_add 1 hrun).trans (runSteps_succ 0 hfinal), hnone, rfl,
    fun b => ⟨fun hb => ?_, (hunused b).mpr, hmax _ b.isLt⟩, htotal ▸ hle, buildCum_total u.efreq⟩
  exact Nat.pos_of_ne_zero fun h => (hunused b).mp (eq_zero_iff_toNat.mpr h) hb

end Sys2Proof.Machine
end

section
/-! The encoder's interval in natural numbers: RenormCond (42_range_encoder.md R128), Narrow (R126), and
the renormalisation loop by the number of its iterations (R127, R130). -/

namespace Sys2Proof.Machine

/-! ### RenormCond -/

/-- The clamp in the order of operations of 42_range_encoder.md R128. -/
theorem clamp_eq_ofNat (low : Word) :
    clamp low = BitVec.ofNat 32 ((2 ^ 32 - low.toNat) % 2 ^ 32 % 2 ^ 16) := by
  refine BitVec.eq_of_toNat_eq ?_
  rw [toNat_clamp, BitVec.toNat_ofNat]
  omega

/-- Settles O32: the three cases of the condition, told apart by the top bytes and then the floor. -/
theorem renormCondIsAShortCircuit : Obligations.RenormCondIsAShortCircuit := by
  intro low range
  have hfloor : Config.floor = 2 ^ 16 := rfl
  rcases renormCond_cases low range with ⟨hs, he⟩ | ⟨hs, hlt, he⟩ | ⟨hs, hle, he⟩
  · exact ⟨fun _ => he, fun hne => absurd ((stable_iff _ _).mp hs) hne⟩
  · refine ⟨fun heq => absurd heq (not_stable_iff hs), fun _ => ⟨fun _ => ?_, fun hle => ?_⟩⟩
    · rw [he, clamp_eq_ofNat]
    · omega
  · exact ⟨fun heq => absurd heq (not_stable_iff hs), fun _ => ⟨fun hlt => by omega, fun _ => he⟩⟩

/-! ### Narrow -/

theorem udiv_eq_zero_iff {a b : Word} : a / b = 0 ↔ b.toNat = 0 ∨ a.toNat < b.toNat := by
  rw [eq_zero_iff_toNat, BitVec.toNat_udiv, Nat.div_eq_zero_iff]

theorem udiv_ne_zero {a b : Word} (hb : 1 ≤ b.toNat) (hab : b.toNat ≤ a.toNat) : a / b ≠ 0 := by
  rw [Ne, udiv_eq_zero_iff]
  omega

/-- Narrow's arithmetic modulo 2^32 is that of the naturals, reduced at the end. -/
theorem narrowedPair_toNat (low range start width total : Word) :
    narrowedPair low range start.toNat width.toNat total.toNat =
      (low + start * (range / total), range / total * width) := by
  refine Prod.ext (BitVec.eq_of_toNat_eq ?_) (BitVec.eq_of_toNat_eq ?_) <;> simp [narrowedPair]

/-- Settles O33: with `q` the quotient, `start * q + q * width` is at most `total * q`, so at most the
range, and the new range is not 0. -/
theorem narrowNeverWraps : Obligations.NarrowNeverWraps := by
  intro low range start width total hint hc
  obtain ⟨hw, h1, hlt, hle⟩ := (checkTriple_iff _ _ _).mp hc
  obtain ⟨hr, -, -⟩ := hint.divided h1 hlt
  obtain ⟨-, hsum, -, -⟩ := hint
  have hrange := toNat_narrowed (range := range) (width := width) (total := total) (by omega)
  rw [BitVec.toNat_udiv] at hr
  have hpos : 1 ≤ range.toNat / total.toNat * width.toNat := Nat.mul_pos hr hw
  have hinside : start.toNat * (range.toNat / total.toNat) +
      range.toNat / total.toNat * width.toNat ≤ range.toNat :=
    calc _ = range.toNat / total.toNat * (start.toNat + width.toNat) := by ring
      _ ≤ range.toNat / total.toNat * total.toNat := Nat.mul_le_mul_left _ hle
      _ ≤ range.toNat := Nat.div_mul_le_self _ _
  have hlow : (low + start * (range / total)).toNat =
      low.toNat + start.toNat * (range.toNat / total.toNat) := by
    rw [BitVec.toNat_add, BitVec.toNat_mul, BitVec.toNat_udiv, Nat.add_mod_mod]
    exact Nat.mod_eq_of_lt (by omega)
  rcases narrow_cases low range start width total with ⟨hq, -⟩ | ⟨-, hn⟩
  · rw [eq_zero_iff_toNat, BitVec.toNat_udiv] at hq
    omega
  · exact ⟨_, _, hn, hr, hlow, hrange, by omega⟩

/-! ### The loop on a pair -/

theorem renormAfter_succ (k : Nat) (p : Word × Word) :
    renormAfter (k + 1) p = renormStep (renormAfter k p) := by
  induction k generalizing p with
  | zero => rfl
  | succ k ih => exact ih (renormStep p)

theorem shiftedOut_succ (k : Nat) (p : Word × Word) :
    shiftedOut (k + 1) p = shiftedOut k p ++ bitsMsbFirst 8 (topByte (renormAfter k p).1).toNat := by
  rw [shiftedOut, List.range_succ, List.flatMap_append, List.flatMap_singleton]
  rfl

theorem RenormCount.succ {p : Word × Word} {n : Nat} (hgo : needsMore p = true)
    (h : RenormCount (renormStep p) n) : RenormCount p (n + 1) := by
  obtain ⟨hmore, hstop⟩ := h
  refine ⟨fun k hk => ?_, hstop⟩
  cases k with
  | zero => exact hgo
  | succ k => exact hmore k (Nat.lt_of_succ_lt_succ hk)

/-- A loop that ends within k tests makes fewer than k iterations. -/
theorem EndsIn.exists_renormCount {k : Nat} {p : Word × Word} (h : EndsIn k p.1 p.2) :
    ∃ n < k, RenormCount p n := by
  induction k generalizing p with
  | zero => exact h.elim
  | succ k ih =>
    by_cases hgo : needsMore p = true
    · obtain ⟨n, hn, hcount⟩ := ih (p := renormStep p) (h hgo)
      exact ⟨n + 1, Nat.succ_lt_succ hn, hcount.succ hgo⟩
    · exact ⟨0, Nat.succ_pos k, nofun, Bool.eq_false_iff.mpr hgo⟩

/-! ### RenormE -/

/-- One iteration takes the encoder from k iterations to k + 1. -/
theorem shiftOut_encodedState (s : State) (p : Word × Word) (k : Nat) :
    shiftOut (renormCond (renormAfter k p).1 (renormAfter k p).2).2 (encodedState s p k) =
      encodedState s p (k + 1) := by
  rw [encodedState, encodedState, renormAfter_succ, shiftedOut_succ, ← List.append_assoc]
  rfl

/-- RenormE from its k-th iteration on. -/
theorem renormE_encodedState {n k fuel : Nat} {p : Word × Word} (s : State) (h : RenormCount p n)
    (hk : k ≤ n) (hfuel : n < fuel + k) :
    renormE fuel k (encodedState s p k) = .ok n (encodedState s p n) := by
  induction fuel generalizing k with
  | zero => omega
  | succ fuel ih =>
    obtain ⟨hmore, hstop⟩ := h
    rcases Nat.lt_or_eq_of_le hk with hlt | rfl
    · calc _ = renormE fuel (k + 1)
            (shiftOut (renormCond (renormAfter k p).1 (renormAfter k p).2).2 (encodedState s p k)) :=
          if_pos (hmore k hlt)
        _ = _ := by rw [shiftOut_encodedState, ih hlt (by omega)]
    · exact if_neg (Bool.eq_false_iff.mp hstop)

end Sys2Proof.Machine
end

section
/-! The encoder's commands (42_range_encoder.md R121 to R124): ENC_INIT, the triple of ENC_ENCODE and of
ENC_SYM through Narrow and RenormE, and the 32 bits of ENC_FLUSH. -/

namespace Sys2Proof.Machine

/-! ### ENC_INIT -/

/-- Settles O28: ENC_INIT has no condition on the state, E_DIRTY included. -/
theorem encInitConstructsTheCoder : Obligations.EncInitConstructsTheCoder :=
  ⟨rfl, fun _ hn => exec_completes hn rfl rfl rfl⟩

/-! ### ENC_ENCODE -/

/-- Narrow with a quotient of at least 1, then at most three iterations: the narrowed range is not 0
(42_range_encoder.md R122, R130). -/
theorem encodeTriple_completes {start width total : Word} {s : State}
    (hc : checkTriple start.toNat width.toNat total.toNat = true)
    (hq : total.toNat ≤ s.eRange.toNat) {p : Word × Word}
    (hp : p = narrowedPair s.eLow s.eRange start.toNat width.toNat total.toNat) :
    ∃ n ≤ 3, RenormCount p n ∧ encodeTriple start width total s = .ok n (encodedState s p n) := by
  obtain ⟨hw, h1, -, hle⟩ := (checkTriple_iff _ _ _).mp hc
  have hquot := udiv_ne_zero h1 hq
  rw [narrowedPair_toNat] at hp
  have hrange : p.2.toNat ≠ 0 := by
    rw [hp, toNat_narrowed (by omega)]
    exact Nat.mul_ne_zero (Nat.div_pos hq h1).ne' (by omega)
  obtain ⟨n, hn, hcount⟩ := (endsIn_four (low := p.1) hrange).exists_renormCount
  have hstart : (s.setDirty true).setEnc p.1 p.2 = encodedState s p 0 := by
    rw [encodedState, shiftedOut, List.range_zero, List.flatMap_nil, List.append_nil]
    rfl
  refine ⟨n, Nat.le_of_lt_succ hn, hcount, ?_⟩
  rw [encodeTriple_eq, if_neg hquot, ← renormE_encodedState s hcount (Nat.zero_le n) hn, ← hstart, hp]
  rfl

/-- ENC_ENCODE of a triple that meets its contract, with a quotient of at least 1. -/
theorem exec_encEncode {start width total : Word} {s : State} (hn : s.fcause = none)
    (hc : checkTriple start.toNat width.toNat total.toNat = true)
    (hq : total.toNat ≤ s.eRange.toNat) {p : Word × Word}
    (hp : p = narrowedPair s.eLow s.eRange start.toNat width.toNat total.toNat) :
    ∃ n ≤ 3, RenormCount p n ∧ exec (.encEncode start width total) s =
      .next (answered (encodedState s p n) (BitVec.ofNat 32 n) 0 0) := by
  obtain ⟨n, hle, hcount, hr⟩ := encodeTriple_completes hc hq hp
  refine ⟨n, hle, hcount, exec_completes hn rfl hc ?_⟩
  rw [pseudocode, hr, Res.bind_ok]

/-- Settles O29: the contract and the quotient are all the encoder asks. -/
theorem encEncodeNarrowsAndRenormalises : Obligations.EncEncodeNarrowsAndRenormalises := by
  intro start width total s hn hw h1 hlt hle hq p hp
  exact exec_encEncode hn ((checkTriple_iff _ _ _).mpr ⟨hw, h1, hlt, hle⟩) hq hp

/-! ### ENC_SYM -/

theorem protocolHolds_encSym {sym : Byte} {s : State} :
    protocolHolds (.encSym sym) s = true ↔ s.est = .final := beq_iff_eq

/-- TripleOf by the statements' name for the start (42_range_encoder.md R129). -/
theorem tripleOf_eq (cum : Table 18) (m : Nat) :
    tripleOf cum m = (startOf cum m, (readEntry cum m).toNat - startOf cum m) := by
  cases m <;> rfl

/-- Settles O30: the symbol's triple is the one given, and ENC_ENCODE's pseudocode runs on it. -/
theorem encSymEncodesTheSymbolsTriple : Obligations.EncSymEncodesTheSymbolsTriple := by
  intro sym s start width hn hest hstart hentry hw hle hlt hq p hp
  have htriple : tripleOf s.ecum sym.toNat = (start, width) := by
    rw [tripleOf_eq, hentry, ← hstart, Nat.add_sub_cancel_left]
  have hc : checkTriple start width s.eTotal.toNat = true :=
    (checkTriple_iff _ _ _).mpr ⟨hw, by omega, hlt, hle⟩
  have hcontract : contractHolds (.encSym sym) s = true := by
    rw [contractHolds, htriple]
    exact hc
  have hs : (BitVec.ofNat 32 start).toNat = start := Nat.mod_eq_of_lt (by omega)
  have hwd : (BitVec.ofNat 32 width).toNat = width := Nat.mod_eq_of_lt (by omega)
  have ht : (s.eTotal.setWidth 32).toNat = s.eTotal.toNat := by
    rw [BitVec.toNat_setWidth]
    omega
  rw [← hs, ← hwd, ← ht] at hc hp
  obtain ⟨n, hn3, hcount, hr⟩ := encodeTriple_completes hc (ht ▸ hq) hp
  refine ⟨n, hn3, hcount, exec_completes hn (protocolHolds_encSym.mpr hest) hcontract ?_⟩
  simp only [pseudocode, encodeSymbol, htriple, hr, Res.bind_ok]

/-! ### ENC_FLUSH -/

/-- The bits of a register's top byte are its own first eight. -/
theorem bitsMsbFirst_topByte (v : Word) :
    bitsMsbFirst 8 (topByte v).toNat = (List.range 8).map v.getMsbD := by
  refine List.map_congr_left fun k hk => ?_
  have hk := List.mem_range.mp hk
  rw [BitVec.testBit_toNat, topByte, BitVec.getLsbD_extractLsb', BitVec.getMsbD_eq_getLsbD,
    decide_eq_true (by omega), decide_eq_true (by omega)]
  congr 2
  omega

/-- The loop of ENC_FLUSH: k top bytes are the first 8·k bits of E_LOW. -/
theorem pushLow_eq (k : Nat) (s : State) :
    pushLow k s = (s.appendOut ((List.range (8 * k)).map s.eLow.getMsbD)).setEnc
      (s.eLow <<< (8 * k)) s.eRange := by
  induction k generalizing s with
  | zero => simp [pushLow, State.appendOut, State.setEnc]
  | succ k ih =>
    have hbits : (List.range (8 * (k + 1))).map s.eLow.getMsbD =
        (List.range 8).map s.eLow.getMsbD ++ (List.range (8 * k)).map (s.eLow <<< 8).getMsbD := by
      rw [Nat.mul_succ, Nat.add_comm, List.range_add, List.map_append, List.map_map]
      congr 2
      funext j
      rw [BitVec.getMsbD_shiftLeft, Nat.add_comm]
      rfl
    have hlow : s.eLow <<< (8 * (k + 1)) = s.eLow <<< 8 <<< (8 * k) := by
      rw [Nat.mul_succ, Nat.add_comm, BitVec.shiftLeft_add]
    rw [pushLow, ih, push_eq, bitsMsbFirst_topByte, hbits, hlow]
    simp [State.appendOut, State.setEnc]

/-- ENC_FLUSH with a flush owed (42_range_encoder.md R124). -/
theorem exec_encFlush_dirty {s : State} (hn : s.fcause = none) (hd : s.eDirty = true) :
    exec .encFlush s = .next (answered
      { s with
        eLow := 0, eRange := 0xFFFFFFFF, eDirty := false,
        out := s.out ++ (List.range 32).map s.eLow.getMsbD } 4 0 0) := by
  obtain ⟨low, hloop⟩ : ∃ low, pushLow 4 s =
      (s.appendOut ((List.range 32).map s.eLow.getMsbD)).setEnc low s.eRange := ⟨_, pushLow_eq 4 s⟩
  refine exec_completes hn rfl rfl ?_
  show flushCoder s = _
  rw [flushCoder, if_pos hd, hloop]
  rfl

theorem exec_encFlush_clean {s : State} (hn : s.fcause = none) (hd : s.eDirty = false) :
    exec .encFlush s = .next (answered s 0 0 0) :=
  exec_completes hn rfl rfl (if_neg (Bool.eq_false_iff.mp hd))

/-- Settles O31: the bits of E_LOW from bit 31 down. -/
theorem encFlushEmitsLowOnce : Obligations.EncFlushEmitsLowOnce := by
  refine ⟨rfl, fun s hn => ⟨fun hd => ⟨(List.range 32).map s.eLow.getMsbD, by simp, fun k hk => ?_,
    exec_encFlush_dirty hn hd⟩, exec_encFlush_clean hn⟩⟩
  rw [List.getElem?_map, List.getElem?_range hk, Option.map_some, BitVec.getMsbD_eq_getLsbD,
    decide_eq_true hk, Bool.true_and]

end Sys2Proof.Machine
end

section
/-! The defensive arms (42_range_encoder.md R126, R130; 43_range_decoder.md R142, R147, R148): a zero
quotient raises CONTRACT, and an interval has none. -/

namespace Sys2Proof.Machine

/-! ### DEC_GETFREQ by its quotient -/

theorem protocolHolds_decGetfreq {total : Word} {s : State} :
    protocolHolds (.decGetfreq total) s = true ↔ s.dcs = .ready := beq_iff_eq

theorem protocolHolds_decSym {s : State} :
    protocolHolds .decSym s = true ↔ s.dcs = .ready ∧ s.dst = .final := by
  simp [protocolHolds]

theorem contractHolds_decGetfreq {total : Word} (s : State) (h1 : 1 ≤ total.toNat)
    (hlt : total.toNat < 65536) : contractHolds (.decGetfreq total) s = true :=
  decide_eq_true ⟨h1, hlt⟩

/-- A zero quotient raises with nothing written (43_range_decoder.md R142). -/
theorem getFreq_of_lt {total : Word} {s : State} (h : s.dRange.toNat < total.toNat) :
    getFreq total s = .raised .contract s :=
  if_pos (udiv_eq_zero_iff.mpr (.inr h))

theorem getFreq_of_le {total : Word} {s : State} (h1 : 1 ≤ total.toNat)
    (hle : total.toNat ≤ s.dRange.toNat) :
    getFreq total s = .ok ((s.dCode - s.dLow) / (s.dRange / total))
      (((s.setDec s.dLow (s.dRange / total) s.dCode).setTot (total.setWidth 16)).setDcs .pending) :=
  if_neg (udiv_ne_zero h1 hle)

/-- DEC_GETFREQ of an accepted total with a quotient of at least 1 (43_range_decoder.md R142). -/
theorem exec_decGetfreq {total : Word} {s : State} (hn : s.fcause = none) (hdcs : s.dcs = .ready)
    (h1 : 1 ≤ total.toNat) (hlt : total.toNat < 65536) (hle : total.toNat ≤ s.dRange.toNat) :
    exec (.decGetfreq total) s = .next (answered
      { s with dRange := s.dRange / total, dTot := total.setWidth 16, dcs := .pending }
      ((s.dCode - s.dLow) / (s.dRange / total)) 0 0) := by
  refine exec_completes hn (protocolHolds_decGetfreq.mpr hdcs) (contractHolds_decGetfreq s h1 hlt) ?_
  rw [pseudocode, getFreq_of_le h1 hle]
  rfl

theorem toNat_dTotal_setWidth (s : State) : (s.dTotal.setWidth 32).toNat = s.dTotal.toNat := by
  rw [BitVec.toNat_setWidth]
  omega

/-- Settles O42: each raise is the first thing its pseudocode does, but for the encoder's E_DIRTY. -/
theorem zeroQuotientsRaiseContract : Obligations.ZeroQuotientsRaiseContract := by
  refine fun s start width total hn => ⟨fun hc hlt => ?_, fun hready h1 hmax hlt => ?_,
    fun hready hfinal hlt => ?_⟩
  · refine exec_raises hn rfl hc ?_
    rw [pseudocode, encodeTriple_eq, if_pos (udiv_eq_zero_iff.mpr (.inr hlt)), Res.bind_raised]
    rfl
  · refine exec_raises hn (protocolHolds_decGetfreq.mpr hready) (contractHolds_decGetfreq s h1 hmax) ?_
    rw [pseudocode, getFreq_of_lt hlt, Res.bind_raised]
  · refine exec_raises hn (protocolHolds_decSym.mpr ⟨hready, hfinal⟩) rfl ?_
    rw [← toNat_dTotal_setWidth] at hlt
    rw [pseudocode, decodeSymbol, getFreq_of_lt hlt, Res.bind_raised]

/-! ### The causes of DEC_SYM -/

/-- A sequence raises when one of its parts does. -/
theorem Res.bind_eq_raised {α β : Type} {r : Res α} {f : α → State → Res β} {x : Cause} {t : State}
    (h : r.bind f = .raised x t) : r = .raised x t ∨ ∃ a u, r = .ok a u ∧ f a u = .raised x t := by
  cases r with
  | ok a u => exact .inr ⟨a, u, rfl, h⟩
  | raised y u =>
    cases h
    exact .inl rfl
  | diverged => cases h

theorem renormD_raised {fuel n : Nat} {s u : State} {x : Cause}
    (h : renormD fuel n s = .raised x u) : x = .srcUnderflow := by
  induction fuel generalizing n s with
  | zero => cases h
  | succ fuel ih =>
    unfold renormD at h
    simp only at h
    split at h
    · rcases pop_cases 8 s with ⟨-, hp⟩ | ⟨-, hp⟩
      · rw [hp] at h
        cases h
        rfl
      · rw [hp] at h
        exact ih h
    · cases h

theorem commitTriple_raised {start width : Word} {s u : State} {x : Cause}
    (h : commitTriple start width s = .raised x u) : x = .srcUnderflow := by
  rcases Res.bind_eq_raised h with h | ⟨_, _, -, h⟩
  · exact renormD_raised h
  · cases h

theorem lookupSymbol_raised {f : Word} {s u : State} {x : Cause}
    (h : lookupSymbol f s = .raised x u) : x = .lookupRange := by
  unfold lookupSymbol at h
  split at h
  · cases h
    rfl
  · cases h

/-- With a quotient of at least 1, DEC_SYM raises only in its lookup or for want of bytes
(43_range_decoder.md R147). -/
theorem decodeSymbol_raised {s u : State} {x : Cause} (h1 : 1 ≤ s.dTotal.toNat)
    (hle : s.dTotal.toNat ≤ s.dRange.toNat) (h : decodeSymbol s = .raised x u) :
    x = .lookupRange ∨ x = .srcUnderflow := by
  rw [← toNat_dTotal_setWidth] at h1 hle
  rw [decodeSymbol, getFreq_of_le h1 hle, Res.bind_ok] at h
  rcases Res.bind_eq_raised h with h | ⟨_, _, -, h⟩
  · exact .inl (lookupSymbol_raised h)
  · rcases Res.bind_eq_raised h with h | ⟨_, _, -, h⟩
    · exact .inr (commitTriple_raised h)
    · cases h

theorem decodeSymbol_ne_diverged (s : State) : decodeSymbol s ≠ .diverged := by
  refine Res.bind_ne_diverged ?_ fun f t => Res.bind_ne_diverged ?_ fun d u =>
    Res.bind_ne_diverged (commitTriple_ne_diverged d.d1 d.d2 u) fun _ _ => respond_ne_diverged _ _ _ _
  · unfold getFreq
    simp only
    split <;> nofun
  · unfold lookupSymbol
    split <;> nofun

/-! ### Under the invariant -/

/-- The range of an interval is at least every total a contract admits (42_range_encoder.md R130). -/
theorem IntervalOk.total_le {low range : Word} (h : IntervalOk low range) {total : Nat}
    (hlt : total < Config.maxTotal) : total ≤ range.toNat :=
  hlt.le.trans h.1

/-- DEC_SYM of a block that meets the invariant does not raise CONTRACT (43_range_decoder.md R148). -/
theorem exec_decSym_ne_contract {s t : State} (hside : DecodeSideOk s) (hn : s.fcause = none)
    (h : exec .decSym s = .next t) : t.fcause ≠ some .contract := by
  obtain ⟨hready, -, hfinal⟩ := hside
  have hw := pseudocode_mayWrite .decSym s
  rcases runCommand_cases h with ⟨x, hx, -⟩ | ⟨x, _, _, hx, -⟩ | ⟨-, -, rfl⟩ | ⟨-, -, hc, -⟩ |
    ⟨-, hp, -, x, u, hr, rfl⟩ | ⟨-, -, -, d, u, hr, rfl⟩
  · rw [hn] at hx
    cases hx
  · rw [hn] at hx
    cases hx
  · nofun
  · cases hc
  · obtain ⟨hdcs, hdst⟩ := protocolHolds_decSym.mp hp
    obtain ⟨⟨-, htotal⟩, hlt⟩ := hfinal hdst
    rcases decodeSymbol_raised (by omega) ((hready hdcs).total_le hlt) hr with rfl | rfl <;> nofun
  · rw [show pseudocode .decSym s = .ok d u from hr, Res.all_ok] at hw
    rw [State.answer_fcause, show u.fcause = none from (hw.fcause.resolve_right nofun).trans hn]
    nofun

/-- Settles O43: an interval's range is at least every accepted total, so no quotient is 0. -/
theorem defensiveArmsAreUnreachable : Obligations.DefensiveArmsAreUnreachable := by
  rintro s start width total ⟨-, hsides⟩ hn
  obtain ⟨⟨hinterval, -⟩, hdec⟩ := hsides hn
  refine ⟨fun hc => ?_, fun hdcs h1 hlt => ?_, ?_⟩
  · obtain ⟨-, -, hlt, -⟩ := (checkTriple_iff _ _ _).mp hc
    obtain ⟨n, -, -, ht⟩ := exec_encEncode hn hc (hinterval.total_le hlt) rfl
    exact ⟨_, ht, hn⟩
  · obtain ⟨hready, -⟩ := hdec
    exact ⟨_, exec_decGetfreq hn hdcs h1 hlt ((hready hdcs).total_le hlt), hn⟩
  · obtain ⟨t, ht⟩ := runCommand_answers .decSym s (decodeSymbol_ne_diverged s)
    exact ⟨t, ht, exec_decSym_ne_contract hdec hn ht⟩

end Sys2Proof.Machine
end

section
/-! The source bytes of the decoder (43_range_decoder.md R141, R144): D_CODE as the value of the bits shifted
into it, and the two loops that shift bytes in, to their end or to the last whole byte of a short source. -/

namespace Sys2Proof.Machine

/-! ### D_CODE as the value of a bit sequence -/

/-- A byte shifted into a register appends its bits to those the register holds. -/
theorem shl8_or_natOfBits (a : List Bool) {b : List Bool} (hb : b.length = 8) :
    (BitVec.ofNat 32 (natOfBits a) <<< 8) ||| BitVec.ofNat 32 (natOfBits b) =
      BitVec.ofNat 32 (natOfBits (a ++ b)) := by
  have hlt := natOfBits_lt b
  rw [hb] at hlt
  refine BitVec.eq_of_toNat_eq ?_
  have hshift : natOfBits a % 2 ^ 32 * 256 % 2 ^ 32 = (natOfBits a % 2 ^ 24) <<< 8 := by
    rw [Nat.shiftLeft_eq]
    omega
  rw [BitVec.toNat_or, toNat_shl8, BitVec.toNat_ofNat, BitVec.toNat_ofNat, BitVec.toNat_ofNat,
    Nat.mod_eq_of_lt (a := natOfBits b) (by omega), hshift, ← Nat.shiftLeft_add_eq_or_of_lt hlt,
    Nat.shiftLeft_eq, natOfBits_append, hb]
  omega

/-- k bytes shifted in append their bits to those D_CODE holds. -/
theorem codeAfter_ofNat {k : Nat} (a : List Bool) {bits : List Bool} (hlen : 8 * k ≤ bits.length) :
    codeAfter k (BitVec.ofNat 32 (natOfBits a)) bits =
      BitVec.ofNat 32 (natOfBits (a ++ bits.take (8 * k))) := by
  induction k generalizing a bits with
  | zero => rw [codeAfter, Nat.mul_zero, List.take_zero, List.append_nil]
  | succ k ih =>
    have hbyte : (bits.take 8).length = 8 := List.length_take_of_le (by omega)
    rw [codeAfter, shl8_or_natOfBits a hbyte, ih _ (by rw [List.length_drop]; omega),
      List.append_assoc, ← List.take_add, Nat.mul_succ, Nat.add_comm]

theorem codeAfter_succ (k : Nat) (code : Word) (bits : List Bool) :
    codeAfter (k + 1) code bits =
      (codeAfter k code bits <<< 8) ||| BitVec.ofNat 32 (natOfBits ((bits.drop (8 * k)).take 8)) := by
  induction k generalizing code bits with
  | zero => rfl
  | succ k ih =>
    rw [codeAfter, ih, codeAfter, List.drop_drop, Nat.mul_succ, Nat.add_comm]

/-! ### The next byte of the source -/

theorem bitsLeft_eq_length_unread (s : State) : bitsLeft s = (unread s).length :=
  List.length_drop.symm

/-- The next byte, as it is shifted into a register. -/
theorem setWidth_nextByte (bits : List Bool) :
    (BitVec.ofNat 8 (natOfBits (bits.take 8))).setWidth 32 =
      BitVec.ofNat 32 (natOfBits (bits.take 8)) := by
  have hlt := (natOfBits_lt (bits.take 8)).trans_le
    (Nat.pow_le_pow_right (by decide) (List.length_take_le 8 bits))
  refine BitVec.eq_of_toNat_eq ?_
  rw [BitVec.toNat_setWidth, BitVec.toNat_ofNat, BitVec.toNat_ofNat, Nat.mod_eq_of_lt hlt]

/-! ### The loop of DEC_INIT -/

/-- `s` when k bytes have been shifted into D_CODE: D_CODE and SRCPOS, nothing else. -/
def codeRead (s : State) (k : Nat) : State :=
  { s with dCode := codeAfter k s.dCode (unread s), srcpos := s.srcpos + 8 * k }

theorem unread_codeRead (s : State) (k : Nat) : unread (codeRead s k) = (unread s).drop (8 * k) :=
  List.drop_drop.symm

/-- One iteration takes D_CODE from k bytes to k + 1. -/
theorem codeRead_succ (s : State) (k : Nat) :
    ((codeRead s k).advance 8).setDec (codeRead s k).dLow (codeRead s k).dRange
      (((codeRead s k).dCode <<< 8) |||
        (BitVec.ofNat 8 (natOfBits ((unread (codeRead s k)).take 8))).setWidth 32) =
      codeRead s (k + 1) := by
  rw [setWidth_nextByte, unread_codeRead, codeRead, codeRead, codeAfter_succ]
  rfl

/-- The loop from its n-th byte on (43_range_decoder.md R141, 60_exceptions.md R192). -/
theorem primeCode_codeRead {k n : Nat} (s : State) (hn : 8 * n ≤ (unread s).length) :
    primeCode k (codeRead s n) =
      if 8 * (n + k) ≤ (unread s).length then .ok () (codeRead s (n + k))
      else .raised .srcUnderflow (codeRead s ((unread s).length / 8)) := by
  induction k generalizing n with
  | zero => exact (if_pos hn).symm
  | succ k ih =>
    have hleft : bitsLeft (codeRead s n) = (unread s).length - 8 * n := by
      rw [bitsLeft_eq_length_unread, unread_codeRead, List.length_drop]
    rw [primeCode]
    rcases pop_cases 8 (codeRead s n) with ⟨hshort, hpop⟩ | ⟨hle, hpop⟩
    · have hlast : (unread s).length / 8 = n := by omega
      rw [hpop, Res.bind_raised, if_neg (by omega), hlast]
    · rw [hpop, Res.bind_ok]
      refine (congrArg (primeCode k) (codeRead_succ s n)).trans ?_
      rw [ih (by omega), Nat.add_right_comm, Nat.add_assoc]

/-! ### The loop of RenormD -/

theorem unread_decodedState (s : State) (p : Word × Word) (k : Nat) :
    unread (decodedState s p k) = (unread s).drop (8 * k) :=
  List.drop_drop.symm

/-- One iteration takes the decoder from k iterations to k + 1. -/
theorem shiftIn_decodedState (s : State) (p : Word × Word) (k : Nat) :
    shiftIn (renormCond (renormAfter k p).1 (renormAfter k p).2).2
      (BitVec.ofNat 8 (natOfBits ((unread (decodedState s p k)).take 8)))
      ((decodedState s p k).advance 8) = decodedState s p (k + 1) := by
  rw [shiftIn, setWidth_nextByte, unread_decodedState, decodedState, decodedState, codeAfter_succ,
    renormAfter_succ]
  rfl

/-- RenormD from its k-th iteration on, when the loop asks for n bytes at least, and for no more if the
source holds them: to its end, or to the last whole byte (43_range_decoder.md R144, 60_exceptions.md R192). -/
theorem renormD_decodedState {n k fuel : Nat} {p : Word × Word} (s : State)
    (hmore : ∀ j < n, needsMore (renormAfter j p) = true)
    (hstop : 8 * n ≤ (unread s).length → needsMore (renormAfter n p) = false)
    (hk : k ≤ n) (hbytes : 8 * k ≤ (unread s).length) (hfuel : n < fuel + k) :
    renormD fuel k (decodedState s p k) =
      if 8 * n ≤ (unread s).length then .ok n (decodedState s p n)
      else .raised .srcUnderflow (decodedState s p ((unread s).length / 8)) := by
  induction fuel generalizing k with
  | zero => omega
  | succ fuel ih =>
    rcases Nat.lt_or_eq_of_le hk with hlt | rfl
    · have hleft : bitsLeft (decodedState s p k) = (unread s).length - 8 * k := by
        rw [bitsLeft_eq_length_unread, unread_decodedState, List.length_drop]
      refine (if_pos (hmore k hlt)).trans ?_
      rcases pop_cases 8 (decodedState s p k) with ⟨hshort, hpop⟩ | ⟨hle, hpop⟩
      · have hlast : (unread s).length / 8 = k := by omega
        rw [hpop, Res.bind_raised, if_neg (by omega), hlast]
      · rw [hpop, Res.bind_ok]
        exact (congrArg (renormD fuel (k + 1)) (shiftIn_decodedState s p k)).trans
          (ih hlt (by omega) (by omega))
    · rw [if_pos hbytes]
      exact if_neg (Bool.eq_false_iff.mp (hstop hbytes))

/-- A range of 0 is stable. -/
theorem renormCond_zero (low : Word) : renormCond low 0 = (true, 0) :=
  if_pos (by simp [stable, Config.top])

/-- The loop does not end from a range of 0, which every iteration keeps. -/
theorem needsMore_renormAfter_of_range_zero (k : Nat) {p : Word × Word} (hp : p.2 = 0) :
    needsMore (renormAfter k p) = true := by
  induction k generalizing p with
  | zero => rw [renormAfter, needsMore, hp, renormCond_zero]
  | succ k ih => exact ih (by rw [renormStep, hp, renormCond_zero]; rfl)

end Sys2Proof.Machine
end

section
/-! DEC_INIT, DEC_GETFREQ and DEC_DECODE (43_range_decoder.md R141 to R143). -/

namespace Sys2Proof.Machine

/-! ### DEC_INIT -/

/-- The state DEC_INIT's loop starts from, k bytes later. -/
theorem codeRead_decInit {s : State} {k : Nat} (hlen : 8 * k ≤ (unread s).length) :
    codeRead ((s.setDcs .uninit).setDec 0 Config.maxRange 0) k =
      { s with
        dLow := 0, dRange := 0xFFFFFFFF,
        dCode := BitVec.ofNat 32 (natOfBits ((unread s).take (8 * k))), dcs := .uninit,
        srcpos := s.srcpos + 8 * k } :=
  congrArg (fun code => { s with
    dLow := 0, dRange := 0xFFFFFFFF, dCode := code, dcs := .uninit, srcpos := s.srcpos + 8 * k })
    (codeAfter_ofNat [] hlen)

/-- DEC_INIT's loop from its first byte on. -/
theorem primeDecoder_eq (s : State) :
    primeDecoder s =
      if 32 ≤ (unread s).length then
        respond (BitVec.ofNat 32 (natOfBits ((unread s).take 32))) 0 0
          { s with
            dLow := 0, dRange := 0xFFFFFFFF,
            dCode := BitVec.ofNat 32 (natOfBits ((unread s).take 32)), dcs := .ready,
            srcpos := s.srcpos + 32 }
      else .raised .srcUnderflow
        { s with
          dLow := 0, dRange := 0xFFFFFFFF,
          dCode := BitVec.ofNat 32 (natOfBits ((unread s).take (8 * ((unread s).length / 8)))),
          dcs := .uninit, srcpos := s.srcpos + 8 * ((unread s).length / 8) } := by
  have hloop : primeCode 4 ((s.setDcs .uninit).setDec 0 Config.maxRange 0) =
      if 32 ≤ (unread s).length then
        .ok () (codeRead ((s.setDcs .uninit).setDec 0 Config.maxRange 0) 4)
      else .raised .srcUnderflow
        (codeRead ((s.setDcs .uninit).setDec 0 Config.maxRange 0) ((unread s).length / 8)) :=
    primeCode_codeRead (n := 0) ((s.setDcs .uninit).setDec 0 Config.maxRange 0) (Nat.zero_le _)
  rw [primeDecoder, hloop]
  split
  · rename_i hlen
    rw [codeRead_decInit (k := 4) hlen]
    rfl
  · rw [codeRead_decInit (Nat.mul_div_le _ 8)]
    rfl

/-- DEC_INIT with four bytes left. -/
theorem exec_decInit {s : State} (hn : s.fcause = none) (hlen : 32 ≤ (unread s).length) :
    exec .decInit s = .next (answered
      { s with
        dLow := 0, dRange := 0xFFFFFFFF,
        dCode := BitVec.ofNat 32 (natOfBits ((unread s).take 32)), dcs := .ready,
        srcpos := s.srcpos + 32 } (BitVec.ofNat 32 (natOfBits ((unread s).take 32))) 0 0) :=
  exec_completes hn rfl rfl ((primeDecoder_eq s).trans (if_pos hlen))

/-- Settles O34: the loop shifts in four bytes, or as many whole ones as are left. -/
theorem decInitPrimesTheCode : Obligations.DecInitPrimesTheCode := by
  refine ⟨rfl, fun s hn => ⟨fun hlen code hcode => ?_, fun hlen k hk => ?_⟩⟩
  · rw [hcode]
    exact exec_decInit hn hlen
  · rw [hk]
    exact exec_raises hn rfl rfl ((primeDecoder_eq s).trans (if_neg (Nat.not_le_of_lt hlen)))

/-! ### DEC_GETFREQ -/

/-- f in natural numbers: the difference modulo 2^32 over the divided range (43_range_decoder.md R142). -/
theorem toNat_frequency (low range code total : Word) :
    ((code - low) / (range / total)).toNat =
      (2 ^ 32 + code.toNat - low.toNat) % 2 ^ 32 / (range.toNat / total.toNat) := by
  have hlow := low.isLt
  rw [BitVec.toNat_udiv, BitVec.toNat_sub, BitVec.toNat_udiv]
  congr 2
  omega

/-- Settles O35: the quotient is at least 1, so the pseudocode runs to its response. -/
theorem decGetfreqDividesTheRange : Obligations.DecGetfreqDividesTheRange := by
  intro total s hn hdcs h1 hlt hle
  refine ⟨_, toNat_frequency s.dLow s.dRange s.dCode total, ?_⟩
  rw [exec_decGetfreq hn hdcs h1 hlt hle, BitVec.udiv_def (x := s.dRange), ← BitVec.ofNat_toNat]

/-! ### DEC_DECODE -/

/-- The pseudocode of DEC_DECODE when the loop asks for n bytes at least, and for no more if the source
holds them. -/
theorem commitTriple_eq {start width : Word} {s : State} {n : Nat} {p : Word × Word}
    (hp : p = (s.dLow + start * s.dRange, s.dRange * width))
    (hmore : ∀ j < n, needsMore (renormAfter j p) = true)
    (hstop : 8 * n ≤ (unread s).length → needsMore (renormAfter n p) = false)
    (hle : n ≤ (unread s).length / 8 + 3) :
    commitTriple start width s =
      if 8 * n ≤ (unread s).length then .ok n { decodedState s p n with dcs := .ready }
      else .raised .srcUnderflow (decodedState s p ((unread s).length / 8)) := by
  have hfuel : n < decFuel s + 0 := by
    rw [decFuel, bitsLeft_eq_length_unread]
    omega
  have hloop := renormD_decodedState s hmore hstop (Nat.zero_le n) (Nat.zero_le _) hfuel
  have hstart : decodedState s p 0 =
      s.setDec (s.dLow + start * s.dRange) (s.dRange * width) s.dCode := by
    rw [hp]
    rfl
  rw [commitTriple, ← hstart, hloop]
  split <;> rfl

/-- A non-zero narrowed range makes at most three iterations (42_range_encoder.md R130 (4)). -/
theorem exists_renormCount {p : Word × Word} (hp : p.2 ≠ 0) : ∃ n ≤ 3, RenormCount p n := by
  have hrange : p.2.toNat ≠ 0 := fun h => hp (eq_zero_iff_toNat.mpr h)
  obtain ⟨n, hn, hcount⟩ := (endsIn_four (low := p.1) hrange).exists_renormCount
  exact ⟨n, Nat.le_of_lt_succ hn, hcount⟩

theorem protocolHolds_decDecode {start width total : Word} {s : State} :
    protocolHolds (.decDecode start width total) s = true ↔ s.dcs = .pending := beq_iff_eq

theorem contractHolds_decDecode {start width total : Word} {s : State}
    (htot : total.toNat = s.dTot.toNat) (hw : 1 ≤ width.toNat) (h1 : 1 ≤ total.toNat)
    (hle : start.toNat + width.toNat ≤ total.toNat) :
    contractHolds (.decDecode start width total) s = true := by
  have hlt := s.dTot.isLt
  have hmax : Config.maxTotal = 2 ^ 16 := rfl
  have heq : total = s.dTot.setWidth 32 := BitVec.eq_of_toNat_eq (by
    rw [BitVec.toNat_setWidth, htot]
    omega)
  exact Bool.and_eq_true_iff.mpr
    ⟨beq_iff_eq.mpr heq, (checkTriple_iff _ _ _).mpr ⟨hw, h1, by omega, hle⟩⟩

section
variable {start width total : Word} {s : State} (hn : s.fcause = none) (hdcs : s.dcs = .pending)
  (hc : contractHolds (.decDecode start width total) s = true)
include hn hdcs hc

theorem exec_decDecode {n : Nat} {u : State} (hr : commitTriple start width s = .ok n u) :
    exec (.decDecode start width total) s = .next (answered u (BitVec.ofNat 32 n) 0 0) := by
  refine exec_completes hn (protocolHolds_decDecode.mpr hdcs) hc ?_
  rw [pseudocode, hr, Res.bind_ok]

theorem exec_decDecode_raised {x : Cause} {u : State}
    (hr : commitTriple start width s = .raised x u) :
    exec (.decDecode start width total) s = .next (faultedWith u x 0x32000000) := by
  refine exec_raises hn (protocolHolds_decDecode.mpr hdcs) hc ?_
  rw [pseudocode, hr, Res.bind_raised]

end

/-- Settles O36: from a non-zero range the loop asks for its n bytes, from a range of 0 for one more than
the source holds. -/
theorem decDecodeNarrowsAndRenormalises : Obligations.DecDecodeNarrowsAndRenormalises := by
  intro start width total s hn hdcs htot hw h1 hle p hp
  have hc := contractHolds_decDecode htot hw h1 hle
  refine ⟨fun hrange => ?_, fun hrange => ?_⟩
  · obtain ⟨n, hn3, hcount⟩ := exists_renormCount hrange
    obtain ⟨hmore, hstop⟩ := hcount
    have hr := commitTriple_eq hp hmore (fun _ => hstop) (by omega)
    exact ⟨n, hn3, ⟨hmore, hstop⟩, fun hlen => exec_decDecode hn hdcs hc (hr.trans (if_pos hlen)),
      fun hlen => exec_decDecode_raised hn hdcs hc (hr.trans (if_neg (Nat.not_le_of_lt hlen)))⟩
  · have hshort : ¬ 8 * ((unread s).length / 8 + 1) ≤ (unread s).length := by omega
    have hr := commitTriple_eq (n := (unread s).length / 8 + 1) hp
      (fun j _ => needsMore_renormAfter_of_range_zero j hrange) (absurd · hshort) (by omega)
    exact exec_decDecode_raised hn hdcs hc (hr.trans (if_neg hshort))

end Sys2Proof.Machine
end

section
/-! The bits an encoder pushes for a list of triples, and why they name a point of its interval
(42_range_encoder.md R126 to R130, 43_range_decoder.md R148): as arithmetic on intervals and bit lists. -/

namespace Sys2Proof.Machine

/-! ### The interval and the bits of a list of triples -/

/-- The number of iterations the loop makes from a pair, when it is below `fuel`. -/
def loopCount (fuel : Nat) (p : Word × Word) : Nat :=
  match fuel with
  | 0 => 0
  | fuel + 1 => if needsMore p then loopCount fuel (renormStep p) + 1 else 0

theorem RenormCount.loopCount_eq {fuel n : Nat} {p : Word × Word} (h : RenormCount p n)
    (hn : n < fuel) : loopCount fuel p = n := by
  obtain ⟨hmore, hstop⟩ := h
  induction fuel generalizing n p with
  | zero => omega
  | succ fuel ih =>
    cases n with
    | zero => exact if_neg (Bool.eq_false_iff.mp hstop)
    | succ n =>
      have hgo : needsMore p = true := hmore 0 (Nat.succ_pos n)
      rw [loopCount, if_pos hgo,
        ih (Nat.lt_of_succ_lt_succ hn) (fun k hk => hmore (k + 1) (Nat.succ_lt_succ hk)) hstop]

/-- A triple (start, width, total) that passes its check (42_range_encoder.md R125). -/
abbrev Accepted (x : Word × Word × Word) : Prop :=
  checkTriple x.1.toNat x.2.1.toNat x.2.2.toNat = true

/-- The pair a triple narrows an interval to (42_range_encoder.md R126). -/
def narrowedTo (p : Word × Word) (x : Word × Word × Word) : Word × Word :=
  narrowedPair p.1 p.2 x.1.toNat x.2.1.toNat x.2.2.toNat

/-- The iterations of the loop after a triple (42_range_encoder.md R127). -/
def codedCount (p : Word × Word) (x : Word × Word × Word) : Nat := loopCount 4 (narrowedTo p x)

/-- The interval after a triple. -/
def codedInterval (p : Word × Word) (x : Word × Word × Word) : Word × Word :=
  renormAfter (codedCount p x) (narrowedTo p x)

/-- The bits pushed for a triple. -/
def codedBytes (p : Word × Word) (x : Word × Word × Word) : List Bool :=
  shiftedOut (codedCount p x) (narrowedTo p x)

/-- The bits pushed for a list of triples, from an interval on. -/
def codedBits (ts : List (Word × Word × Word)) (p : Word × Word) : List Bool :=
  match ts with
  | [] => []
  | x :: ts => codedBytes p x ++ codedBits ts (codedInterval p x)

/-- The trailer: the 32 bits of E_LOW (42_range_encoder.md R124). -/
def trailerBits (low : Word) : List Bool := (List.range 32).map low.getMsbD

theorem length_trailerBits (low : Word) : (trailerBits low).length = 32 := by
  rw [trailerBits, List.length_map, List.length_range]

theorem codedBits_append (ts us : List (Word × Word × Word)) (p : Word × Word) :
    codedBits (ts ++ us) p = codedBits ts p ++ codedBits us (ts.foldl codedInterval p) := by
  induction ts generalizing p with
  | nil => rfl
  | cons x ts ih =>
    rw [List.cons_append, codedBits, ih, codedBits, List.append_assoc, List.foldl_cons]

theorem length_shiftedOut (n : Nat) (p : Word × Word) : (shiftedOut n p).length = 8 * n := by
  induction n with
  | zero => rfl
  | succ n ih => rw [shiftedOut_succ, List.length_append, ih, length_bitsMsbFirst, Nat.mul_succ]

theorem length_codedBytes (p : Word × Word) (x : Word × Word × Word) :
    (codedBytes p x).length = 8 * codedCount p x := length_shiftedOut _ _

/-! ### The intervals stay intervals -/

theorem LoopOk.renormAfter {k : Nat} {p : Word × Word} (h : LoopOk p.1 p.2)
    (hmore : ∀ j < k, needsMore (renormAfter j p) = true) :
    LoopOk (renormAfter k p).1 (renormAfter k p).2 := by
  induction k with
  | zero => exact h
  | succ k ih =>
    rw [renormAfter_succ]
    exact (ih fun j hj => hmore j (Nat.lt_succ_of_lt hj)).shift (hmore k (Nat.lt_succ_self k))

theorem narrowedTo_eq (p : Word × Word) (x : Word × Word × Word) :
    narrowedTo p x = (p.1 + x.1 * (p.2 / x.2.2), p.2 / x.2.2 * x.2.1) :=
  narrowedPair_toNat _ _ _ _ _

section
variable {p : Word × Word} {x : Word × Word × Word} (hint : IntervalOk p.1 p.2) (hx : Accepted x)
include hint hx

theorem loopOk_narrowedTo : LoopOk (narrowedTo p x).1 (narrowedTo p x).2 := by
  obtain ⟨hw, h1, hlt, hle⟩ := (checkTriple_iff _ _ _).mp hx
  rw [narrowedTo_eq]
  exact (hint.divided h1 hlt).narrowed hw hle

theorem codedCount_spec : codedCount p x ≤ 3 ∧ RenormCount (narrowedTo p x) (codedCount p x) := by
  obtain ⟨hpos, -⟩ := loopOk_narrowedTo hint hx
  obtain ⟨n, hn, hcount⟩ := exists_renormCount (p := narrowedTo p x)
    (mt eq_zero_iff_toNat.mp (by omega))
  rw [codedCount, hcount.loopCount_eq (Nat.lt_succ_of_le hn)]
  exact ⟨hn, hcount⟩

theorem intervalOk_codedInterval : IntervalOk (codedInterval p x).1 (codedInterval p x).2 := by
  obtain ⟨-, hmore, hstop⟩ := codedCount_spec hint hx
  exact ((loopOk_narrowedTo hint hx).renormAfter hmore).intervalOk hstop

/-- Narrow in natural numbers: nothing wraps, and the part lies in the interval (42_range_encoder.md
R130 (2)). -/
theorem narrowedTo_toNat :
    1 ≤ p.2.toNat / x.2.2.toNat ∧
    (narrowedTo p x).1.toNat = p.1.toNat + x.1.toNat * (p.2.toNat / x.2.2.toNat) ∧
    (narrowedTo p x).2.toNat = p.2.toNat / x.2.2.toNat * x.2.1.toNat ∧
    (narrowedTo p x).1.toNat + (narrowedTo p x).2.toNat ≤ p.1.toNat + p.2.toNat := by
  obtain ⟨low, range, hnarrow, hspec⟩ := narrowNeverWraps p.1 p.2 x.1 x.2.1 x.2.2 hint hx
  rcases narrow_cases p.1 p.2 x.1 x.2.1 x.2.2 with ⟨-, hnone⟩ | ⟨-, hsome⟩
  · rw [hnone] at hnarrow
    cases hnarrow
  · rw [hsome, Option.some.injEq, ← narrowedTo_eq] at hnarrow
    rwa [hnarrow]

end

theorem intervalOk_foldl {ts : List (Word × Word × Word)} {p : Word × Word}
    (hint : IntervalOk p.1 p.2) (hts : ∀ x ∈ ts, Accepted x) :
    IntervalOk (ts.foldl codedInterval p).1 (ts.foldl codedInterval p).2 := by
  induction ts generalizing p with
  | nil => exact hint
  | cons x ts ih =>
    obtain ⟨hx, hts⟩ := List.forall_mem_cons.mp hts
    exact ih (intervalOk_codedInterval hint hx) hts

/-! ### The bits name a point of the interval -/

/-- The first 32 bits, read as a number, lie in the interval (43_range_decoder.md R148). -/
def BitsWithin (p : Word × Word) (bits : List Bool) : Prop :=
  32 ≤ bits.length ∧ p.1.toNat ≤ natOfBits (bits.take 32) ∧
    natOfBits (bits.take 32) < p.1.toNat + p.2.toNat

theorem toNat_topByte (v : Word) : (topByte v).toNat = v.toNat / 2 ^ 24 := by
  have hv := v.isLt
  rw [topByte, BitVec.extractLsb'_toNat, Nat.shiftRight_eq_div_pow]
  omega

/-- The first 32 bits of a byte and more bits. -/
theorem natOfBits_take_byte_append (b : Byte) {bits : List Bool} (hlen : 32 ≤ bits.length) :
    natOfBits ((bitsMsbFirst 8 b.toNat ++ bits).take 32) =
      b.toNat * 2 ^ 24 + natOfBits (bits.take 32) / 256 := by
  have hsplit : bits.take 32 = bits.take 24 ++ (bits.drop 24).take 8 :=
    List.take_add (i := 24) (j := 8)
  have hlast : ((bits.drop 24).take 8).length = 8 :=
    List.length_take_of_le (by rw [List.length_drop]; omega)
  have hlt := natOfBits_lt ((bits.drop 24).take 8)
  have hb := b.isLt
  rw [hlast] at hlt
  rw [List.take_append, length_bitsMsbFirst, List.take_of_length_le (by simp), natOfBits_append,
    natOfBits_bitsMsbFirst, List.length_take_of_le (by omega), hsplit, natOfBits_append, hlast,
    Nat.mod_eq_of_lt hb]
  show b.toNat * 2 ^ 24 + natOfBits (bits.take 24) = _
  omega

/-- One iteration backwards: if the bits to come lie in the shifted interval, then with the byte shifted
out before them they lie in the interval it was shifted out of; a clamp only cuts the interval short. -/
theorem BitsWithin.unshift {p : Word × Word} {bits : List Bool} (h : LoopOk p.1 p.2)
    (hgo : needsMore p = true) (hbits : BitsWithin (renormStep p) bits) :
    BitsWithin p (bitsMsbFirst 8 (topByte p.1).toNat ++ bits) := by
  obtain ⟨hlen, hge, hlt⟩ := hbits
  obtain ⟨-, hsum, htop⟩ := h
  have ht : Config.top = 2 ^ 24 := rfl
  have hf : Config.floor = 2 ^ 16 := rfl
  have hl := p.1.isLt
  rw [ht] at htop
  rw [renormStep, toNat_shl8] at hge hlt
  rw [toNat_shl8] at hlt
  refine ⟨by rw [List.length_append]; omega, ?_⟩
  rw [natOfBits_take_byte_append _ hlen, toNat_topByte]
  rcases renormCond_cases p.1 p.2 with ⟨hs, he⟩ | ⟨hs, hr, he⟩ | ⟨-, -, he⟩
  · have hs := (stable_iff _ _).mp hs
    simp only [he] at hlt
    omega
  · have hs := not_stable_iff hs
    simp only [he, toNat_clamp] at hlt
    omega
  · rw [needsMore, he] at hgo
    cases hgo

/-- The whole loop backwards. -/
theorem BitsWithin.shiftedOut_append {n : Nat} {p : Word × Word} {bits : List Bool}
    (h : LoopOk p.1 p.2) (hmore : ∀ j < n, needsMore (renormAfter j p) = true)
    (hbits : BitsWithin (renormAfter n p) bits) : BitsWithin p (shiftedOut n p ++ bits) := by
  induction n generalizing bits with
  | zero => exact hbits
  | succ n ih =>
    have hmore' : ∀ j < n, needsMore (renormAfter j p) = true :=
      fun j hj => hmore j (Nat.lt_succ_of_lt hj)
    rw [renormAfter_succ] at hbits
    rw [shiftedOut_succ, List.append_assoc]
    exact ih hmore' (hbits.unshift (h.renormAfter hmore') (hmore n (Nat.lt_succ_self n)))

section
variable {p : Word × Word} {bits : List Bool} (hint : IntervalOk p.1 p.2)
include hint

/-- A triple's bits backwards, to the part of the interval it narrows to (43_range_decoder.md R148 (b)). -/
theorem bitsWithin_narrowedTo {x : Word × Word × Word} (hx : Accepted x)
    (hbits : BitsWithin (codedInterval p x) bits) :
    BitsWithin (narrowedTo p x) (codedBytes p x ++ bits) := by
  obtain ⟨-, hmore, -⟩ := codedCount_spec hint hx
  exact hbits.shiftedOut_append (loopOk_narrowedTo hint hx) hmore

theorem bitsWithin_codedBits {ts : List (Word × Word × Word)} (hts : ∀ x ∈ ts, Accepted x)
    (hbits : BitsWithin (ts.foldl codedInterval p) bits) : BitsWithin p (codedBits ts p ++ bits) := by
  induction ts generalizing p with
  | nil => exact hbits
  | cons x ts ih =>
    obtain ⟨hx, hts⟩ := List.forall_mem_cons.mp hts
    obtain ⟨hlen, hge, hlt⟩ :=
      bitsWithin_narrowedTo hint hx (ih (intervalOk_codedInterval hint hx) hts hbits)
    obtain ⟨-, hlow, -, hinside⟩ := narrowedTo_toNat hint hx
    rw [codedBits, List.append_assoc]
    exact ⟨hlen, by omega, by omega⟩

/-- The trailer is the interval's low end. -/
theorem bitsWithin_trailerBits : BitsWithin p (trailerBits p.1 ++ bits) := by
  obtain ⟨hfloor, -⟩ := hint
  have hf : Config.floor = 2 ^ 16 := rfl
  have hlen := length_trailerBits p.1
  have htrailer : trailerBits p.1 = bitsMsbFirst 32 p.1.toNat := by
    refine List.map_congr_left fun k hk => ?_
    rw [BitVec.testBit_toNat, BitVec.getMsbD_eq_getLsbD, decide_eq_true (List.mem_range.mp hk),
      Bool.true_and]
  have hvalue : natOfBits ((trailerBits p.1 ++ bits).take 32) = p.1.toNat := by
    rw [List.take_left' hlen, htrailer, natOfBits_bitsMsbFirst, Nat.mod_eq_of_lt p.1.isLt]
  refine ⟨by rw [List.length_append]; omega, ?_⟩
  rw [hvalue]
  omega

end

end Sys2Proof.Machine
end

section
/-! Triples through the encoder's commands and back through the decoder's (43_range_decoder.md R148): the
two runs over a list of triples, and the lockstep of their intervals. -/

namespace Sys2Proof.Machine

/-- Presented commands as the host's actions. -/
def commands (l : List Instr) : List HostEvent := l.map fun i => .command (encode i)

theorem commands_append (l m : List Instr) : commands (l ++ m) = commands l ++ commands m :=
  List.map_append

/-- The encoder's command for a triple. -/
def encodeCommand (x : Word × Word × Word) : Instr := .encEncode x.1 x.2.1 x.2.2

/-- The decoder's two commands for a triple. -/
def decodeCommands (x : Word × Word × Word) : List Instr :=
  [.decGetfreq x.2.2, .decDecode x.1 x.2.1 x.2.2]

/-! ### The encoder -/

/-- The encoder has taken a list of triples from `s` to `t`. -/
structure EncodedTo (ts : List (Word × Word × Word)) (s t : State) : Prop where
  fcause : t.fcause = none
  interval : (t.eLow, t.eRange) = ts.foldl codedInterval (s.eLow, s.eRange)
  dirty : t.eDirty = (s.eDirty || !ts.isEmpty)
  out : t.out = s.out ++ codedBits ts (s.eLow, s.eRange)
  responses : ∃ rs, t.responses = s.responses ++ rs ∧ Clean rs

/-- ENC_ENCODE of an accepted triple, from an interval. -/
theorem exec_encEncode_encodedTo {x : Word × Word × Word} {s : State} (hn : s.fcause = none)
    (hint : IntervalOk s.eLow s.eRange) (hx : Accepted x) :
    ∃ t, exec (encodeCommand x) s = .next t ∧ EncodedTo [x] s t := by
  obtain ⟨-, -, hlt, -⟩ := (checkTriple_iff _ _ _).mp hx
  obtain ⟨n, hn3, hcount, ht⟩ := exec_encEncode (p := narrowedTo (s.eLow, s.eRange) x) hn hx
    (hint.total_le hlt) rfl
  obtain rfl : codedCount (s.eLow, s.eRange) x = n := hcount.loopCount_eq (Nat.lt_succ_of_le hn3)
  refine ⟨_, ht, hn, rfl, (Bool.or_true _).symm, ?_, _, rfl, List.forall_mem_singleton.mpr rfl⟩
  rw [codedBits, codedBits, List.append_nil]
  rfl

theorem EncodedTo.cons {x : Word × Word × Word} {ts : List (Word × Word × Word)} {s t u : State}
    (h : EncodedTo [x] s t) (h' : EncodedTo ts t u) : EncodedTo (x :: ts) s u := by
  obtain ⟨-, hint, hdirty, hout, rs, hrs, hclean⟩ := h
  obtain ⟨hn, hint', hdirty', hout', rs', hrs', hclean'⟩ := h'
  have hint : (t.eLow, t.eRange) = codedInterval (s.eLow, s.eRange) x := hint
  rw [hint] at hint' hout'
  refine ⟨hn, hint', ?_, ?_, rs ++ rs', by rw [hrs', hrs, List.append_assoc],
    List.forall_mem_append.mpr ⟨hclean, hclean'⟩⟩
  · rw [hdirty', hdirty]
    cases s.eDirty <;> rfl
  · rw [hout', hout, codedBits, codedBits, codedBits, List.append_nil, List.append_assoc]

/-- What was left on the queue does not matter. -/
theorem EncodedTo.of_setInputs {ts : List (Word × Word × Word)} {s t : State} {l : List HostEvent}
    (h : EncodedTo ts (s.setInputs l) t) : EncodedTo ts s t :=
  ⟨h.fcause, h.interval, h.dirty, h.out, h.responses⟩

/-- The encoder's run over a list of triples. -/
theorem runSteps_encode {ts : List (Word × Word × Word)} {s : State} {rest : List HostEvent}
    (hn : s.fcause = none) (hint : IntervalOk s.eLow s.eRange) (hts : ∀ x ∈ ts, Accepted x)
    (hin : s.inputs = commands (ts.map encodeCommand) ++ rest) :
    ∃ t, runSteps ts.length s = .next t ∧ t.inputs = rest ∧ EncodedTo ts s t := by
  induction ts generalizing s with
  | nil =>
    exact ⟨s, rfl, hin, hn, rfl, (Bool.or_false _).symm, (List.append_nil _).symm, [],
      (List.append_nil _).symm, nofun⟩
  | cons x ts ih =>
    obtain ⟨hx, hts⟩ := List.forall_mem_cons.mp hts
    obtain ⟨t, ht, hto⟩ := exec_encEncode_encodedTo
      (s := s.setInputs (commands (ts.map encodeCommand) ++ rest)) hn hint hx
    obtain ⟨hstep, hqueue⟩ := step_command hin ht
    have hinterval : (t.eLow, t.eRange) = codedInterval (s.eLow, s.eRange) x := hto.interval
    have hint' : IntervalOk (t.eLow, t.eRange).1 (t.eLow, t.eRange).2 :=
      hinterval ▸ intervalOk_codedInterval (p := (s.eLow, s.eRange)) hint hx
    obtain ⟨u, hu, hrest, hto'⟩ := ih hto.fcause hint' hts hqueue
    exact ⟨u, (runSteps_succ _ hstep).trans hu, hrest, hto.of_setInputs.cons hto'⟩

/-- The whole encode: the triples' bits, then the trailer. -/
theorem runSteps_encode_flush {ts : List (Word × Word × Word)} {s : State} {rest : List HostEvent}
    (hne : ts ≠ []) (hn : s.fcause = none) (hint : IntervalOk s.eLow s.eRange)
    (hts : ∀ x ∈ ts, Accepted x)
    (hin : s.inputs = commands (ts.map encodeCommand ++ [.encFlush]) ++ rest) :
    ∃ t rs, runSteps (ts.length + 1) s = .next t ∧
      t.out = s.out ++ (codedBits ts (s.eLow, s.eRange) ++
        trailerBits (ts.foldl codedInterval (s.eLow, s.eRange)).1) ∧
      t.responses = s.responses ++ rs ∧ Clean rs := by
  rw [commands_append, List.append_assoc] at hin
  obtain ⟨t, ht, hqueue, hn', hinterval, hdirty, hout, rs, hrs, hclean⟩ := runSteps_encode hn hint hts hin
  have hdirty : t.eDirty = true := by
    rw [hdirty, List.isEmpty_eq_false_iff.mpr hne]
    exact Bool.or_true _
  obtain ⟨hstep, -⟩ := step_command hqueue (exec_encFlush_dirty (s := t.setInputs rest) hn' hdirty)
  refine ⟨_, rs ++ [⟨0, 4, 0, 0⟩], (runSteps_add 1 ht).trans (runSteps_succ 0 hstep), ?_, ?_,
    List.forall_mem_append.mpr ⟨hclean, List.forall_mem_singleton.mpr rfl⟩⟩
  · rw [← hinterval, ← List.append_assoc, ← hout]
    rfl
  · rw [← List.append_assoc, ← hrs]
    rfl

/-! ### The decoder -/

/-- A primed decoder on the interval `p`: the first 32 of the bits still to decode are in D_CODE, the others
in the source. -/
structure DecoderAt (p : Word × Word) (bits : List Bool) (u : State) : Prop where
  fcause : u.fcause = none
  dcs : u.dcs = .ready
  interval : (u.dLow, u.dRange) = p
  code : u.dCode = BitVec.ofNat 32 (natOfBits (bits.take 32))
  source : unread u = bits.drop 32

theorem DecoderAt.setInputs {p : Word × Word} {bits : List Bool} {u : State} (h : DecoderAt p bits u)
    (l : List HostEvent) : DecoderAt p bits (u.setInputs l) :=
  ⟨h.fcause, h.dcs, h.interval, h.code, h.source⟩

/-- DEC_INIT puts the decoder at the start of the source. -/
theorem step_decInit {u : State} {rest : List HostEvent} (hn : u.fcause = none)
    (hlen : 32 ≤ (unread u).length) (hin : u.inputs = .command (encode .decInit) :: rest) :
    ∃ v code, step u = .next v ∧ v.inputs = rest ∧ DecoderAt (0, 0xFFFFFFFF) (unread u) v ∧
      v.responses = u.responses ++ [⟨0, code, 0, 0⟩] := by
  obtain ⟨hstep, hqueue⟩ := step_command hin (exec_decInit (s := u.setInputs rest) hn hlen)
  exact ⟨_, _, hstep, hqueue, ⟨hn, rfl, rfl, rfl, List.drop_drop.symm⟩, rfl⟩

/-- The bytes that replace a triple's in D_CODE leave there the first 32 of the bits after them. -/
theorem codeAfter_window {k : Nat} {head bits : List Bool} (hhead : head.length = 8 * k)
    (hlen : 32 ≤ bits.length) :
    codeAfter k (BitVec.ofNat 32 (natOfBits ((head ++ bits).take 32))) ((head ++ bits).drop 32) =
      BitVec.ofNat 32 (natOfBits (bits.take 32)) := by
  have hbytes : 8 * k ≤ ((head ++ bits).drop 32).length := by
    rw [List.length_drop, List.length_append]
    omega
  have hwindow : (head ++ bits).take (32 + 8 * k) = head ++ bits.take 32 := by
    rw [List.take_append, List.take_of_length_le (by omega), hhead, Nat.add_sub_cancel]
  refine BitVec.eq_of_toNat_eq ?_
  rw [codeAfter_ofNat _ hbytes, ← List.take_add, hwindow, natOfBits_append,
    List.length_take_of_le hlen, BitVec.toNat_ofNat, BitVec.toNat_ofNat, Nat.mul_add_mod_self_right]

/-- A decoder that has answered the frequency of the triple `x`: the range is divided, and the loop after
`x` has its bytes to come (43_range_decoder.md R142). -/
structure PendingAt (p : Word × Word) (x : Word × Word × Word) (bits : List Bool) (u : State) : Prop where
  fcause : u.fcause = none
  dcs : u.dcs = .pending
  total : x.2.2.toNat = u.dTot.toNat
  narrowed : narrowedTo p x = (u.dLow + x.1 * u.dRange, u.dRange * x.2.1)
  code : u.dCode = BitVec.ofNat 32 (natOfBits ((codedBytes p x ++ bits).take 32))
  source : unread u = (codedBytes p x ++ bits).drop 32

theorem PendingAt.setInputs {p : Word × Word} {x : Word × Word × Word} {bits : List Bool} {u : State}
    (h : PendingAt p x bits u) (l : List HostEvent) : PendingAt p x bits (u.setInputs l) :=
  ⟨h.fcause, h.dcs, h.total, h.narrowed, h.code, h.source⟩

section
variable {p : Word × Word} {x : Word × Word × Word} {bits : List Bool} {u : State}
  (hint : IntervalOk p.1 p.2) (hx : Accepted x)
include hint hx

/-- DEC_DECODE of the triple that was encoded reads as many bytes as the encoder pushed for it, to the
encoder's next interval (43_range_decoder.md R148 (a)). -/
theorem PendingAt.exec_decDecode (h : PendingAt p x bits u) (hlen : 32 ≤ bits.length) :
    ∃ v n, exec (.decDecode x.1 x.2.1 x.2.2) u = .next v ∧ DecoderAt (codedInterval p x) bits v ∧
      v.responses = u.responses ++ [⟨0, n, 0, 0⟩] := by
  obtain ⟨hn, hdcs, htot, hp, hcode, hsource⟩ := h
  obtain ⟨hw, h1, -, hle⟩ := (checkTriple_iff _ _ _).mp hx
  obtain ⟨hn3, hmore, hstop⟩ := codedCount_spec hint hx
  have hbytes : 8 * codedCount p x ≤ (unread u).length := by
    rw [hsource, List.length_drop, List.length_append, length_codedBytes]
    omega
  have hr := (commitTriple_eq hp hmore (fun _ => hstop) (by omega)).trans (if_pos hbytes)
  refine ⟨_, _, Machine.exec_decDecode hn hdcs (contractHolds_decDecode htot hw h1 hle) hr,
    ⟨hn, rfl, rfl, ?_, ?_⟩, rfl⟩
  · show codeAfter _ u.dCode (unread u) = _
    rw [hcode, hsource, codeAfter_window (length_codedBytes p x) hlen]
  · show unread (decodedState u (narrowedTo p x) (codedCount p x)) = _
    rw [unread_decodedState, hsource, List.drop_drop, Nat.add_comm, ← List.drop_drop,
      List.drop_left' (length_codedBytes p x)]

variable (h : DecoderAt p (codedBytes p x ++ bits) u)
include h

/-- The frequency lies in the interval of the triple that was encoded (43_range_decoder.md R148 (b)). -/
theorem DecoderAt.frequency_mem (hbits : BitsWithin (codedInterval p x) bits) :
    x.1.toNat ≤ ((u.dCode - u.dLow) / (u.dRange / x.2.2)).toNat ∧
      ((u.dCode - u.dLow) / (u.dRange / x.2.2)).toNat < x.1.toNat + x.2.1.toNat := by
  obtain ⟨-, hge, hlt⟩ := bitsWithin_narrowedTo hint hx hbits
  obtain ⟨hr, hlow, hrange, -⟩ := narrowedTo_toNat hint hx
  obtain ⟨-, -, rfl, hcode, -⟩ := h
  have hwindow := (natOfBits_lt ((codedBytes (u.dLow, u.dRange) x ++ bits).take 32)).trans_le
    (Nat.pow_le_pow_right (by decide) (List.length_take_le 32 _))
  have hcode : u.dCode.toNat = natOfBits ((codedBytes (u.dLow, u.dRange) x ++ bits).take 32) := by
    rw [hcode, BitVec.toNat_ofNat, Nat.mod_eq_of_lt hwindow]
  dsimp only at hr hlow hrange
  rw [hlow, ← hcode] at hge hlt
  rw [hrange] at hlt
  have hdiff : (2 ^ 32 + u.dCode.toNat - u.dLow.toNat) % 2 ^ 32 = u.dCode.toNat - u.dLow.toNat := by
    have := u.dCode.isLt
    omega
  rw [toNat_frequency, hdiff, Nat.le_div_iff_mul_le hr, Nat.div_lt_iff_lt_mul hr, Nat.add_mul,
    Nat.mul_comm x.2.1.toNat]
  omega

theorem DecoderAt.exec_decGetfreq (hbits : BitsWithin (codedInterval p x) bits) :
    ∃ v f, exec (.decGetfreq x.2.2) u = .next v ∧ PendingAt p x bits v ∧
      v.responses = u.responses ++ [⟨0, f, 0, 0⟩] ∧
      x.1.toNat ≤ f.toNat ∧ f.toNat < x.1.toNat + x.2.1.toNat := by
  have hf := h.frequency_mem hint hx hbits
  obtain ⟨-, h1, hlt, -⟩ := (checkTriple_iff _ _ _).mp hx
  obtain ⟨hn, hdcs, rfl, hcode, hsource⟩ := h
  refine ⟨_, _, Machine.exec_decGetfreq hn hdcs h1 hlt (hint.total_le hlt),
    ⟨hn, rfl, ?_, narrowedTo_eq _ x, hcode, hsource⟩, rfl, hf⟩
  exact ((BitVec.toNat_setWidth _ _).trans (Nat.mod_eq_of_lt hlt)).symm

/-- The two commands of the triple that was encoded. -/
theorem DecoderAt.step (hbits : BitsWithin (codedInterval p x) bits) {rest : List HostEvent}
    (hin : u.inputs = commands (decodeCommands x) ++ rest) :
    ∃ v f n, runSteps 2 u = .next v ∧ v.inputs = rest ∧ DecoderAt (codedInterval p x) bits v ∧
      v.responses = u.responses ++ [⟨0, f, 0, 0⟩, ⟨0, n, 0, 0⟩] ∧
      x.1.toNat ≤ f.toNat ∧ f.toNat < x.1.toNat + x.2.1.toNat := by
  obtain ⟨v, f, hv, hpending, hresp, hf⟩ := (h.setInputs _).exec_decGetfreq hint hx hbits
  obtain ⟨hstep, hqueue⟩ := step_command hin hv
  obtain ⟨w, n, hw, hat, hresp'⟩ := (hpending.setInputs rest).exec_decDecode hint hx hbits.1
  obtain ⟨hstep', hqueue'⟩ := step_command hqueue hw
  refine ⟨w, f, n, (runSteps_succ 1 hstep).trans (runSteps_succ 0 hstep'), hqueue', hat, ?_, hf⟩
  rw [hresp', State.setInputs_responses, hresp, List.append_assoc]
  rfl

end

/-- The frequencies answered for a list of triples, each in its triple's interval: every other response is
DEC_GETFREQ's. -/
def FrequenciesFit (ts : List (Word × Word × Word)) (qs : List Response) : Prop :=
  ∀ k x, ts[k]? = some x → ∃ q, qs[2 * k]? = some q ∧
    x.1.toNat ≤ q.d0.toNat ∧ q.d0.toNat < x.1.toNat + x.2.1.toNat

theorem FrequenciesFit.cons {x : Word × Word × Word} {ts : List (Word × Word × Word)}
    {q r : Response} {qs : List Response} (h : FrequenciesFit ts qs) (hge : x.1.toNat ≤ q.d0.toNat)
    (hlt : q.d0.toNat < x.1.toNat + x.2.1.toNat) : FrequenciesFit (x :: ts) (q :: r :: qs) := by
  intro k y hy
  cases k with
  | zero =>
    cases hy
    exact ⟨q, rfl, hge, hlt⟩
  | succ k => exact h k y hy

/-- The decoder's run over the triples that were encoded. -/
theorem runSteps_decode {ts : List (Word × Word × Word)} {p : Word × Word} {bits : List Bool}
    {u : State} {rest : List HostEvent} (h : DecoderAt p (codedBits ts p ++ bits) u)
    (hint : IntervalOk p.1 p.2) (hts : ∀ x ∈ ts, Accepted x)
    (hbits : BitsWithin (ts.foldl codedInterval p) bits)
    (hin : u.inputs = commands (ts.flatMap decodeCommands) ++ rest) :
    ∃ v qs, runSteps (2 * ts.length) u = .next v ∧ v.inputs = rest ∧
      DecoderAt (ts.foldl codedInterval p) bits v ∧ v.responses = u.responses ++ qs ∧ Clean qs ∧
      FrequenciesFit ts qs := by
  induction ts generalizing p u with
  | nil => exact ⟨u, [], rfl, hin, h, (List.append_nil _).symm, nofun, nofun⟩
  | cons x ts ih =>
    obtain ⟨hx, hts⟩ := List.forall_mem_cons.mp hts
    have hint' := intervalOk_codedInterval hint hx
    rw [codedBits, List.append_assoc] at h
    rw [List.flatMap_cons, commands_append, List.append_assoc] at hin
    obtain ⟨v, f, n, hv, hqueue, hat, hresp, hge, hlt⟩ :=
      h.step hint hx (bitsWithin_codedBits hint' hts hbits) hin
    obtain ⟨w, qs, hw, hrest, hat', hresp', hclean, hfit⟩ := ih hat hint' hts hbits hqueue
    refine ⟨w, _ :: _ :: qs, ?_, hrest, hat', by rw [hresp', hresp, List.append_assoc]; rfl,
      List.forall_mem_cons.mpr ⟨rfl, List.forall_mem_cons.mpr ⟨rfl, hclean⟩⟩, hfit.cons hge hlt⟩
    rw [List.length_cons, Nat.mul_succ, Nat.add_comm]
    exact (runSteps_add _ hv).trans hw

/-- DEC_INIT and the triples (43_range_decoder.md R148). -/
theorem runSteps_decInit_decode {ts : List (Word × Word × Word)} {bits : List Bool} {u : State}
    {rest : List HostEvent} (hn : u.fcause = none) (hts : ∀ x ∈ ts, Accepted x)
    (hu : unread u = codedBits ts (0, 0xFFFFFFFF) ++ bits)
    (hbits : BitsWithin (ts.foldl codedInterval (0, 0xFFFFFFFF)) bits)
    (hin : u.inputs = commands ([.decInit] ++ ts.flatMap decodeCommands) ++ rest) :
    ∃ v r qs, runSteps (2 * ts.length + 1) u = .next v ∧
      DecoderAt (ts.foldl codedInterval (0, 0xFFFFFFFF)) bits v ∧
      v.responses = u.responses ++ r :: qs ∧ Clean (r :: qs) ∧ FrequenciesFit ts qs := by
  have hlen : 32 ≤ (unread u).length := by
    rw [hu, List.length_append]
    exact hbits.1.trans (Nat.le_add_left _ _)
  obtain ⟨v, code, hstep, hqueue, hat, hresp⟩ := step_decInit hn hlen hin
  rw [hu] at hat
  obtain ⟨w, qs, hw, -, hat', hresp', hclean, hfit⟩ :=
    runSteps_decode hat intervalOk_initial hts hbits hqueue
  exact ⟨w, _, qs, (runSteps_succ _ hstep).trans hw, hat', by rw [hresp', hresp, List.append_assoc]; rfl,
    List.forall_mem_cons.mpr ⟨rfl, hclean⟩, hfit⟩

/-! ### Lockstep -/

theorem length_flatMap_decodeCommands (ts : List (Word × Word × Word)) :
    (ts.flatMap decodeCommands).length = 2 * ts.length := by
  induction ts with
  | nil => rfl
  | cons x ts ih =>
    rw [List.flatMap_cons, List.length_append, ih, List.length_cons, Nat.mul_succ, Nat.add_comm]
    rfl

/-- After the same triples of the two runs the intervals are equal: both are a function of the triples. -/
theorem intervals_agree {front back : List (Word × Word × Word)} {s u : State} {bits : List Bool}
    {rest rest' : List HostEvent} (hts : ∀ x ∈ front ++ back, Accepted x) (hs : s.fcause = none)
    (hlow : s.eLow = 0) (hrange : s.eRange = 0xFFFFFFFF) (hu : u.fcause = none)
    (hsource : unread u = codedBits (front ++ back) (0, 0xFFFFFFFF) ++ bits)
    (hbits : BitsWithin ((front ++ back).foldl codedInterval (0, 0xFFFFFFFF)) bits)
    (hin : s.inputs = commands ((front ++ back).map encodeCommand ++ [.encFlush]) ++ rest)
    (hin' : u.inputs = commands ([.decInit] ++ (front ++ back).flatMap decodeCommands) ++ rest') :
    ∃ t v, runSteps front.length s = .next t ∧ runSteps (2 * front.length + 1) u = .next v ∧
      v.dLow = t.eLow ∧ v.dRange = t.eRange := by
  obtain ⟨hfront, hback⟩ := List.forall_mem_append.mp hts
  have hint : IntervalOk s.eLow s.eRange := by
    rw [hlow, hrange]
    exact intervalOk_initial
  rw [codedBits_append, List.append_assoc] at hsource
  rw [List.foldl_append] at hbits
  rw [List.map_append, List.append_assoc, commands_append, List.append_assoc] at hin
  rw [List.flatMap_append, ← List.append_assoc, commands_append, List.append_assoc] at hin'
  obtain ⟨t, ht, -, hto⟩ := runSteps_encode hs hint hfront hin
  obtain ⟨v, -, -, hv, hat, -⟩ := runSteps_decInit_decode hu hfront hsource
    (bitsWithin_codedBits (intervalOk_foldl intervalOk_initial hfront) hback hbits) hin'
  have hinterval := hto.interval
  rw [hlow, hrange, ← hat.interval, Prod.mk.injEq] at hinterval
  obtain ⟨heLow, heRange⟩ := hinterval
  exact ⟨t, v, ht, hv, heLow.symm, heRange.symm⟩

/-- Settles O56: the bits after each triple name a point of the interval after it, so the decoder finds f
in the triple's own interval and follows the encoder to the end. -/
theorem decoderRunsInLockstepWithTheEncoder : Obligations.DecoderRunsInLockstepWithTheEncoder := by
  rintro ts s u hne hts hs hlow hrange - hu enc dec henc hdec
  have hlenEnc : enc.length = ts.length + 1 := by
    rw [henc, List.length_append, List.length_map]
    rfl
  have hlenDec : dec.length = 2 * ts.length + 1 := by
    rw [hdec, List.length_append, Nat.add_comm]
    exact congrArg (· + 1) (length_flatMap_decodeCommands ts)
  have hint : IntervalOk s.eLow s.eRange := by
    rw [hlow, hrange]
    exact intervalOk_initial
  have hin : (presenting enc s).inputs = commands (ts.map encodeCommand ++ [.encFlush]) ++ [] := by
    rw [henc, List.append_nil]
    rfl
  have hin' : (presenting dec u).inputs = commands ([.decInit] ++ ts.flatMap decodeCommands) ++ [] := by
    rw [hdec, List.append_nil]
    rfl
  obtain ⟨t, rs, ht, hout, hresp, hclean⟩ :=
    runSteps_encode_flush (s := presenting enc s) hne hs hint hts hin
  rw [hlenEnc, hlenDec]
  refine ⟨t, _, rs, ht, hout, hresp, hclean, fun rest hsource => ?_⟩
  replace hsource : unread u = codedBits ts (0, 0xFFFFFFFF) ++
      (trailerBits (ts.foldl codedInterval (0, 0xFFFFFFFF)).1 ++ rest) := by
    rw [hsource, List.append_assoc, ← hlow, ← hrange]
    rfl
  have hfinal := bitsWithin_trailerBits (bits := rest)
    (intervalOk_foldl (p := (0, 0xFFFFFFFF)) intervalOk_initial hts)
  obtain ⟨v, r, qs, hv, hat, hresp', hclean', hfit⟩ :=
    runSteps_decInit_decode (u := presenting dec u) hu hts hsource hfinal hin'
  refine ⟨v, r :: qs, hv, hresp', hclean', ?_, hfit, fun k hk => ?_⟩
  · rw [hat.source, List.drop_left' (length_trailerBits _)]
  · obtain ⟨front, back, rfl, rfl⟩ : ∃ front back, ts = front ++ back ∧ k = front.length :=
      ⟨ts.take k, ts.drop k, (List.take_append_drop k ts).symm, (List.length_take_of_le hk).symm⟩
    exact intervals_agree (s := presenting enc s) (u := presenting dec u) hts hs hlow hrange hu hsource
      hfinal hin hin'

end Sys2Proof.Machine
end

section
/-! DEC_LOOKUP and DEC_SYM (43_range_decoder.md R145 to R147): the symbol of a frequency on a model's table,
and one whole decode step. -/

namespace Sys2Proof.Machine

/-! ### The symbol of a frequency -/

/-- A symbol's entry is its start and its frequency (41_model_builder.md R105, 42_range_encoder.md R129). -/
theorem ModelOk.startOf_add_freq {freq : Table 10} {cum : Table 18} {total : BitVec 18}
    (h : ModelOk freq cum total) {m : Nat} (hm : m < 256) :
    startOf cum m + (readEntry freq m).toNat = (readEntry cum m).toNat := by
  obtain ⟨hcum, -⟩ := h
  rw [hcum m hm]
  cases m with
  | zero => rw [prefixSum_zero, startOf, if_pos rfl, Nat.zero_add]
  | succ m =>
    rw [prefixSum_succ freq hm, startOf, if_neg (Nat.succ_ne_zero m), Nat.add_sub_cancel,
      hcum m (by omega)]

/-- The smallest symbol above f is the one whose interval holds f (43_range_decoder.md R145). -/
theorem LeastAbove.startOf_le {cum : Table 18} {f m : Nat} (h : LeastAbove cum f m) :
    startOf cum m ≤ f := by
  obtain ⟨-, -, hbelow⟩ := h
  rw [startOf]
  split
  · exact Nat.zero_le f
  · exact hbelow _ (by omega)

theorem lookup_eq_none_iff {cum : Table 18} {f : Word} :
    lookup cum f = none ↔ (readEntry cum 255).toNat ≤ f.toNat := by
  rw [lookup]
  split
  · exact iff_of_true rfl ‹_›
  · exact iff_of_false nofun ‹_›

/-- Lookup on a model's table (43_range_decoder.md R145). -/
theorem ModelOk.exists_lookup {freq : Table 10} {cum : Table 18} {total : BitVec 18} {f : Word}
    (h : ModelOk freq cum total) (hf : f.toNat < (readEntry cum 255).toNat) :
    ∃ m, LeastAbove cum f.toNat m ∧
      lookup cum f = some (m, startOf cum m, (readEntry freq m).toNat) := by
  obtain ⟨⟨m, start, width⟩, hl⟩ :=
    Option.ne_none_iff_exists'.mp (mt lookup_eq_none_iff.mp (Nat.not_le_of_lt hf))
  obtain ⟨hleast, htriple⟩ := lookup_some (fun _ _ => h.mono) hl
  have hsum := h.startOf_add_freq hleast.1
  rw [tripleOf_eq, ← hsum, Nat.add_sub_cancel_left] at htriple
  exact ⟨m, hleast, htriple ▸ hl⟩

/-! ### DEC_LOOKUP -/

theorem protocolHolds_decLookup {f : Word} {s : State} :
    protocolHolds (.decLookup f) s = true ↔ s.dst = .final := beq_iff_eq

theorem lookupSymbol_of_some {f : Word} {s : State} {m start width : Nat}
    (h : lookup s.dcum f = some (m, start, width)) :
    lookupSymbol f s =
      respond (BitVec.ofNat 32 m) (BitVec.ofNat 32 start) (BitVec.ofNat 32 width) s := by
  rw [lookupSymbol, h]

theorem lookupSymbol_of_none {f : Word} {s : State} (h : lookup s.dcum f = none) :
    lookupSymbol f s = .raised .lookupRange s := by
  rw [lookupSymbol, h]

/-- Settles O37: the bisection finds the smallest entry above f, whose interval holds f. -/
theorem decLookupFindsTheSmallestSymbol : Obligations.DecLookupFindsTheSmallestSymbol := by
  refine fun f => ⟨rfl, fun s hn => ⟨fun hdst hmodel hf => ?_, fun hdst hf => ?_, fun hdst => ?_⟩⟩
  · obtain ⟨m, hleast, hl⟩ := hmodel.exists_lookup hf
    have hsum := hmodel.startOf_add_freq hleast.1
    have hstart := hleast.startOf_le
    have habove := hleast.2.1
    exact ⟨m, _, _, hleast, rfl, rfl, by omega, hstart, by omega,
      exec_completes hn (protocolHolds_decLookup.mpr hdst) rfl (lookupSymbol_of_some hl)⟩
  · exact exec_raises hn (protocolHolds_decLookup.mpr hdst) rfl
      (lookupSymbol_of_none (lookup_eq_none_iff.mpr hf))
  · exact exec_protocol hn (Bool.eq_false_iff.mpr (mt protocolHolds_decLookup.mp hdst))

/-! ### DEC_SYM -/

/-- The divisor of a decode step: D_TOTAL as an operand. -/
def stepTotal (s : State) : Word := s.dTotal.setWidth 32

/-- f of a decode step (43_range_decoder.md R142, R147). -/
def stepFrequency (s : State) : Word := (s.dCode - s.dLow) / (s.dRange / stepTotal s)

/-- `s` when a decode step has divided the range. -/
def dividedState (s : State) : State :=
  { s with dRange := s.dRange / stepTotal s, dTot := (stepTotal s).setWidth 16, dcs := .pending }

/-- The triple of a symbol of bank D (42_range_encoder.md R129). -/
def symbolTriple (s : State) (m : Nat) : Word × Word × Word :=
  (BitVec.ofNat 32 (startOf s.dcum m), BitVec.ofNat 32 (readEntry s.dfreq m).toNat, stepTotal s)

theorem toNat_stepTotal (s : State) : (stepTotal s).toNat = s.dTotal.toNat := toNat_dTotal_setWidth s

/-- The division's results in the order of operations of 43_range_decoder.md R142. -/
theorem dividedState_eq (s : State) :
    dividedState s = { s with
      dRange := BitVec.ofNat 32 (s.dRange.toNat / s.dTotal.toNat),
      dTot := BitVec.ofNat 16 s.dTotal.toNat, dcs := .pending } := by
  have htot : (stepTotal s).setWidth 16 = BitVec.ofNat 16 s.dTotal.toNat := by
    rw [← toNat_stepTotal]
    exact BitVec.eq_of_toNat_eq ((BitVec.toNat_setWidth _ _).trans (BitVec.toNat_ofNat _ _).symm)
  rw [dividedState, htot, BitVec.udiv_def, toNat_stepTotal]

section
variable {s : State} (hmodel : ModelOk s.dfreq s.dcum s.dTotal) (hlt : s.dTotal.toNat < 65536)
  (hle : s.dTotal.toNat ≤ s.dRange.toNat)

section
variable {m : Nat} (hm : LeastAbove s.dcum (stepFrequency s).toNat m)
include hmodel hlt hm

/-- The triple of a looked-up symbol passes its check, and its operands are the table's numbers. -/
theorem symbolTriple_spec :
    Accepted (symbolTriple s m) ∧ (symbolTriple s m).1.toNat = startOf s.dcum m ∧
      (symbolTriple s m).2.1.toNat = (readEntry s.dfreq m).toNat := by
  have hstart := LeastAbove.startOf_le hm
  obtain ⟨hm256, habove, -⟩ := hm
  have hsum := hmodel.startOf_add_freq hm256
  have hlast := hmodel.mono (i := m) (j := 255) (by omega) (by omega)
  have htotal := hmodel.2
  have hs : (BitVec.ofNat 32 (startOf s.dcum m)).toNat = startOf s.dcum m :=
    Nat.mod_eq_of_lt (by omega)
  have hw : (BitVec.ofNat 32 (readEntry s.dfreq m).toNat).toNat = (readEntry s.dfreq m).toNat :=
    Nat.mod_eq_of_lt (by omega)
  refine ⟨(checkTriple_iff _ _ _).mpr ?_, hs, hw⟩
  rw [symbolTriple, hs, hw, toNat_stepTotal]
  have hmax : Config.maxTotal = 65536 := rfl
  omega

theorem narrowedTo_symbolTriple :
    narrowedTo (s.dLow, s.dRange) (symbolTriple s m) =
      narrowedPair s.dLow s.dRange (startOf s.dcum m) (readEntry s.dfreq m).toNat s.dTotal.toNat := by
  obtain ⟨-, hs, hw⟩ := symbolTriple_spec hmodel hlt hm
  rw [narrowedTo, hs, hw, ← toNat_stepTotal]
  rfl

include hle

/-- The part of the range that a symbol gets is not empty, so the loop makes at most three iterations. -/
theorem exists_renormCount_symbol :
    ∃ n ≤ 3, RenormCount (narrowedTo (s.dLow, s.dRange) (symbolTriple s m)) n := by
  obtain ⟨hx, -⟩ := symbolTriple_spec hmodel hlt hm
  obtain ⟨hw, h1, -, hsum⟩ := (checkTriple_iff _ _ _).mp hx
  have hquot : s.dRange.toNat / (symbolTriple s m).2.2.toNat ≠ 0 :=
    (Nat.div_pos ((toNat_stepTotal s).trans_le hle) h1).ne'
  refine exists_renormCount (mt eq_zero_iff_toNat.mp ?_)
  rw [narrowedTo_eq, toNat_narrowed (by omega)]
  exact Nat.mul_ne_zero hquot (by omega)

end

/-- The narrowing and the loop of a decode step, from any state with the divided range. -/
theorem commitTriple_symbolTriple {u : State} {m n : Nat} (hlow : u.dLow = s.dLow)
    (hrange : u.dRange = s.dRange / stepTotal s) (hn3 : n ≤ 3)
    (hcount : RenormCount (narrowedTo (s.dLow, s.dRange) (symbolTriple s m)) n) :
    commitTriple (symbolTriple s m).1 (symbolTriple s m).2.1 u =
      if 8 * n ≤ (unread u).length then
        .ok n { decodedState u (narrowedTo (s.dLow, s.dRange) (symbolTriple s m)) n with dcs := .ready }
      else .raised .srcUnderflow
        (decodedState u (narrowedTo (s.dLow, s.dRange) (symbolTriple s m))
          ((unread u).length / 8)) := by
  obtain ⟨hmore, hstop⟩ := hcount
  refine commitTriple_eq ?_ hmore (fun _ => hstop) (by omega)
  rw [narrowedTo_eq, hlow, hrange]
  rfl

include hmodel hle

/-- DEC_SYM's pseudocode after its division (43_range_decoder.md R147). -/
theorem decodeSymbol_divided :
    decodeSymbol s = (lookupSymbol (stepFrequency s) (dividedState s)).bind fun d u =>
      (commitTriple d.d1 d.d2 u).bind fun _ v => respond d.d0 d.d1 d.d2 v := by
  have hpos : 1 ≤ (stepTotal s).toNat := by
    rw [toNat_stepTotal, hmodel.2]
    omega
  rw [decodeSymbol, ← stepTotal, getFreq_of_le hpos ((toNat_stepTotal s).trans_le hle)]
  rfl

/-- An f above the table (43_range_decoder.md R147). -/
theorem decodeSymbol_lookupRange (hf : (readEntry s.dcum 255).toNat ≤ (stepFrequency s).toNat) :
    decodeSymbol s = .raised .lookupRange (dividedState s) := by
  rw [decodeSymbol_divided hmodel hle,
    lookupSymbol_of_none (s := dividedState s) (lookup_eq_none_iff.mpr hf), Res.bind_raised]

/-- An f with a symbol: its response, or the state of the completed iterations (43_range_decoder.md R147,
60_exceptions.md R192). -/
theorem decodeSymbol_of_lookup {m n : Nat}
    (hl : lookup s.dcum (stepFrequency s) =
      some (m, startOf s.dcum m, (readEntry s.dfreq m).toNat)) (hn3 : n ≤ 3)
    (hcount : RenormCount (narrowedTo (s.dLow, s.dRange) (symbolTriple s m)) n) :
    decodeSymbol s =
      if 8 * n ≤ (unread s).length then
        respond (BitVec.ofNat 32 m) (symbolTriple s m).1 (symbolTriple s m).2.1
          { decodedState (dividedState s) (narrowedTo (s.dLow, s.dRange) (symbolTriple s m)) n with
            dcs := .ready }
      else .raised .srcUnderflow
        (decodedState (dividedState s) (narrowedTo (s.dLow, s.dRange) (symbolTriple s m))
          ((unread s).length / 8)) := by
  have hcommit := commitTriple_symbolTriple (s := s) (u := dividedState s) rfl rfl hn3 hcount
  have hunread : unread (dividedState s) = unread s := rfl
  rw [hunread] at hcommit
  rw [decodeSymbol_divided hmodel hle, lookupSymbol_of_some (s := dividedState s) hl]
  show (commitTriple (symbolTriple s m).1 (symbolTriple s m).2.1 (dividedState s)).bind (fun _ v =>
    respond (BitVec.ofNat 32 m) (symbolTriple s m).1 (symbolTriple s m).2.1 v) = _
  rw [hcommit]
  split <;> rfl

end

/-- Settles O38: after the division, the symbol of f on a model's table, and its triple as DEC_DECODE's. -/
theorem decSymDecodesOneSymbol : Obligations.DecSymDecodesOneSymbol := by
  intro s r f hn hdcs hdst hmodel hlt hle hr hf u hu
  have hp := protocolHolds_decSym.mpr ⟨hdcs, hdst⟩
  obtain rfl : u = dividedState s := by rw [hu, hr, dividedState_eq]
  obtain rfl : f = (stepFrequency s).toNat := by
    rw [hf, hr, stepFrequency, toNat_frequency, toNat_stepTotal]
  refine ⟨fun hnone => exec_raises hn hp rfl (decodeSymbol_lookupRange hmodel hle hnone),
    fun hsome => ?_⟩
  obtain ⟨m, hleast, hl⟩ := hmodel.exists_lookup hsome
  obtain ⟨n, hn3, hcount⟩ := exists_renormCount_symbol hmodel hlt hle hleast
  have hcode := decodeSymbol_of_lookup hmodel hle hl hn3 hcount
  rw [narrowedTo_symbolTriple hmodel hlt hleast] at hcount hcode
  refine ⟨m, _, _, n, hleast, rfl, rfl, hn3, fun p hpair => ?_⟩
  rw [← hpair] at hcount hcode
  exact ⟨hcount, fun hlen => exec_completes hn hp rfl (hcode.trans (if_pos hlen)),
    fun hlen => exec_raises hn hp rfl (hcode.trans (if_neg (Nat.not_le_of_lt hlen)))⟩

/-! ### DEC_SYM as three commands -/

/-- A command that leaves a block unfaulted has met its conditions, and its pseudocode completes. -/
theorem exec_unfaulted {i : Instr} {s t : State} (hn : s.fcause = none) (ht : t.fcause = none)
    (h : exec i s = .next t) :
    protocolHolds i s = true ∧ ∃ d u, pseudocode i s = .ok d u ∧ t = u.answer 0 d := by
  rw [exec_eq_runCommand] at h
  rcases runCommand_cases h with ⟨x, hx, -⟩ | ⟨x, _, _, hx, -⟩ | ⟨-, -, rfl⟩ | ⟨-, -, -, rfl⟩ |
    ⟨-, -, -, x, u, -, rfl⟩ | ⟨-, hp, -, hdone⟩
  · rw [hn] at hx
    cases hx
  · rw [hn] at hx
    cases hx
  · cases ht
  · cases ht
  · cases ht
  · exact ⟨hp, hdone⟩

/-- `s` after DEC_GETFREQ of D_TOTAL. -/
def afterGetfreq (s : State) : State := answered (dividedState s) (stepFrequency s) 0 0

/-- `s` after DEC_GETFREQ of D_TOTAL and DEC_LOOKUP of its f, which is the symbol m's. -/
def afterLookup (s : State) (m : Nat) : State :=
  answered (afterGetfreq s) (BitVec.ofNat 32 m) (symbolTriple s m).1 (symbolTriple s m).2.1

section
variable {s : State} {m : Nat} (hn : s.fcause = none)
include hn

theorem exec_decLookup_afterGetfreq (hdst : s.dst = .final)
    (hl : lookup s.dcum (stepFrequency s) =
      some (m, startOf s.dcum m, (readEntry s.dfreq m).toNat)) :
    exec (.decLookup (stepFrequency s)) (afterGetfreq s) = .next (afterLookup s m) :=
  exec_completes hn (protocolHolds_decLookup.mpr hdst) rfl (lookupSymbol_of_some hl)

theorem exec_decDecode_afterLookup {n : Nat} (hx : Accepted (symbolTriple s m)) (hn3 : n ≤ 3)
    (hcount : RenormCount (narrowedTo (s.dLow, s.dRange) (symbolTriple s m)) n)
    (hlen : 8 * n ≤ (unread s).length) :
    exec (.decDecode (symbolTriple s m).1 (symbolTriple s m).2.1 (stepTotal s)) (afterLookup s m) =
      .next (answered { decodedState (afterLookup s m)
        (narrowedTo (s.dLow, s.dRange) (symbolTriple s m)) n with dcs := .ready }
        (BitVec.ofNat 32 n) 0 0) := by
  obtain ⟨hw, h1, hmax, hsum⟩ := (checkTriple_iff _ _ _).mp hx
  have htot : (stepTotal s).toNat = (afterLookup s m).dTot.toNat :=
    ((BitVec.toNat_setWidth _ _).trans (Nat.mod_eq_of_lt hmax)).symm
  have hcommit := commitTriple_symbolTriple (s := s) (u := afterLookup s m) rfl rfl hn3 hcount
  exact exec_decDecode (s := afterLookup s m) hn rfl (contractHolds_decDecode htot hw h1 hsum)
    (hcommit.trans (if_pos hlen))

end

/-- Settles O39: a DEC_SYM that completes has found a symbol and its bytes, and so do the three commands,
whose responses are all that differs. -/
theorem decSymIsTheThreeCommandsInSequence : Obligations.DecSymIsTheThreeCommandsInSequence := by
  rintro s t ⟨-, hsides⟩ hn hexec ht
  obtain ⟨-, hready, -, hfinal⟩ := hsides hn
  obtain ⟨hp, d, u, hr, rfl⟩ := exec_unfaulted hn ht hexec
  replace hr : decodeSymbol s = .ok d u := hr
  obtain ⟨hdcs, hdst⟩ := protocolHolds_decSym.mp hp
  obtain ⟨hmodel, hlt⟩ := hfinal hdst
  have hle := (hready hdcs).total_le hlt
  have hf : (stepFrequency s).toNat < (readEntry s.dcum 255).toNat := by
    by_contra hf
    rw [decodeSymbol_lookupRange hmodel hle (Nat.le_of_not_lt hf)] at hr
    cases hr
  obtain ⟨m, hleast, hl⟩ := hmodel.exists_lookup hf
  obtain ⟨n, hn3, hcount⟩ := exists_renormCount_symbol hmodel hlt hle hleast
  rw [decodeSymbol_of_lookup hmodel hle hl hn3 hcount] at hr
  split at hr
  · rename_i hlen
    cases hr
    obtain ⟨hx, -⟩ := symbolTriple_spec hmodel hlt hleast
    obtain ⟨-, h1, hmax, -⟩ := (checkTriple_iff _ _ _).mp hx
    have hgetfreq : exec (.decGetfreq (stepTotal s)) s = .next (afterGetfreq s) :=
      exec_decGetfreq hn hdcs h1 hmax ((toNat_stepTotal s).trans_le hle)
    exact ⟨_, _, _, _, _, _, _, _, hgetfreq, rfl, exec_decLookup_afterGetfreq hn hdst hl, rfl,
      exec_decDecode_afterLookup hn hx hn3 hcount hlen, rfl, rfl⟩
  · cases hr

end Sys2Proof.Machine
end

section
/-! The writers of the banks and of the model registers (10_state.md R28 to R32, R38 to R41). -/

namespace Sys2Proof.Machine

section
variable {i : Instr} {s u : State} (hu : MayWrite i s u) (hsreset : i ≠ .sreset)
include hu hsreset

/-- EFREQ and RUNTOT have their writers (10_state.md R38, R28). -/
theorem MayWrite.histogram (hclear : i ≠ .mbClear) (hcount : ∀ b, i ≠ .mbCount b) :
    u.efreq = s.efreq ∧ u.runtot = s.runtot := by
  cases i with
  | sreset => exact absurd rfl hsreset
  | mbClear => exact absurd rfl hclear
  | mbCount b => exact absurd rfl (hcount b)
  | _ =>
    rw [show u = _ from hu]
    exact ⟨rfl, rfl⟩

/-- ECUM, E_TOTAL and EST have their writers (10_state.md R39, R29, R31). -/
theorem MayWrite.encoderModel (hfinal : i ≠ .mbFinal) :
    u.ecum = s.ecum ∧ u.eTotal = s.eTotal ∧ (i ≠ .mbClear → u.est = s.est) := by
  cases i with
  | sreset => exact absurd rfl hsreset
  | mbFinal => exact absurd rfl hfinal
  | mbClear =>
    rw [show u = _ from hu]
    exact ⟨rfl, rfl, absurd rfl⟩
  | _ =>
    rw [show u = _ from hu]
    exact ⟨rfl, rfl, fun _ => rfl⟩

/-- DFREQ, DCUM, D_TOTAL and DST have their writer (10_state.md R40, R41, R30, R32). -/
theorem MayWrite.decoderModel (hread : i ≠ .hdrRead) :
    u.dfreq = s.dfreq ∧ u.dcum = s.dcum ∧ u.dTotal = s.dTotal ∧ u.dst = s.dst := by
  cases i with
  | sreset => exact absurd rfl hsreset
  | hdrRead => exact absurd rfl hread
  | _ =>
    rw [show u = _ from hu]
    exact ⟨rfl, rfl, rfl, rfl⟩

end

/-- Settles O49: none of the other commands' frames names the bank or the register. -/
theorem tablesHaveTheirWriters : Obligations.TablesHaveTheirWriters := by
  intro i s t h hsreset
  obtain ⟨u, hu, ht⟩ := exec_mayWrite h hsreset
  rw [ht]
  exact ⟨hu.histogram hsreset, hu.encoderModel hsreset, hu.decoderModel hsreset⟩

end Sys2Proof.Machine
end

section
/-! Sequences of presented commands that run without a fault (44_message_procedures.md R160, R161), one
command after another. -/

namespace Sys2Proof.Machine

/-- The commands `l`, presented to the block `s`, run to `t` and are answered `rs`, none with a fault,
whatever else the host has queued. -/
structure Runs (l : List Instr) (s t : State) (rs : List Response) : Prop where
  steps : ∀ rest, runSteps l.length (s.setInputs (commands l ++ rest)) = .next (t.setInputs rest)
  responses : t.responses = s.responses ++ rs
  clean : Clean rs

theorem Runs.nil (s : State) : Runs [] s s [] := ⟨fun _ => rfl, (List.append_nil _).symm, nofun⟩

theorem Runs.append {l m : List Instr} {s t u : State} {rs qs : List Response} (h : Runs l s t rs)
    (h' : Runs m t u qs) : Runs (l ++ m) s u (rs ++ qs) := by
  refine ⟨fun rest => ?_, by rw [h'.responses, h.responses, List.append_assoc],
    List.forall_mem_append.mpr ⟨h.clean, h'.clean⟩⟩
  rw [commands_append, List.append_assoc, List.length_append, runSteps_add _ (h.steps _), h'.steps]

/-- One command that is answered with status 0 whatever the queue holds. -/
theorem Runs.command {i : Instr} {s u : State} {d0 d1 d2 : Word}
    (h : ∀ rest, exec i (s.setInputs rest) = .next (answered (u.setInputs rest) d0 d1 d2))
    (hresp : u.responses = s.responses) :
    Runs [i] s (answered u d0 d1 d2) [⟨0, d0, d1, d2⟩] := by
  refine ⟨fun rest => ?_, congrArg (· ++ _) hresp, List.forall_mem_singleton.mpr rfl⟩
  obtain ⟨hstep, -⟩ := step_command (s := s.setInputs (commands [i] ++ rest)) rfl (h rest)
  exact runSteps_succ 0 hstep

theorem Runs.cons {i : Instr} {l : List Instr} {s t u : State} {r : Response} {rs : List Response}
    (h : Runs [i] s t [r]) (h' : Runs l t u rs) : Runs (i :: l) s u (r :: rs) := h.append h'

/-- The run in the statements' words. -/
theorem Runs.presenting {l : List Instr} {s t : State} {rs : List Response} (h : Runs l s t rs) :
    runSteps l.length (presenting l s) = .next (t.setInputs []) := by
  have hrun := h.steps []
  rwa [List.append_nil] at hrun

end Sys2Proof.Machine
end

section
/-! The first pass of a message (44_message_procedures.md R160): the histogram MB_CLEAR and MB_COUNT leave is
a function of the counted bytes alone (R164). -/

namespace Sys2Proof.Machine

/-! ### The histogram of an input -/

/-- EFREQ and RUNTOT after MB_COUNT of a byte, from EFREQ and RUNTOT before it (41_model_builder.md R102,
R103). -/
def countByte (h : Table 10 × BitVec 15) (b : Byte) : Table 10 × BitVec 15 :=
  if 1023 ≤ (readEntry h.1 b.toNat).toNat + 1 ∨ 16384 ≤ h.2.toNat + 1 then
    (rescaledTable b h.1, BitVec.ofNat 15 (prefixSum (rescaledTable b h.1) 255))
  else (countedTable b h.1, BitVec.ofNat 15 (h.2.toNat + 1))

/-- The histogram of an input (41_model_builder.md R100). -/
def histogramOf (S : List Byte) : Table 10 × BitVec 15 :=
  S.foldl countByte (Vector.replicate 256 0, 0)

/-- The frequency table of an input, which its message's header carries. -/
def freqOf (S : List Byte) : Table 10 := (histogramOf S).1

theorem countSymbol_countByte (b : Byte) (s : State) : ∃ d0 d1, ∀ rest,
    countSymbol b (s.setInputs rest) = respond d0 d1 0 ((s.setHistogram
      (countByte (s.efreq, s.runtot) b).1 (countByte (s.efreq, s.runtot) b).2).setInputs rest) := by
  by_cases h : 1023 ≤ (readEntry s.efreq b.toNat).toNat + 1 ∨ 16384 ≤ s.runtot.toNat + 1
  · rw [countByte, if_pos h]
    exact ⟨1, (BitVec.ofNat 15 (prefixSum (rescaledTable b s.efreq) 255)).setWidth 32,
      fun rest => countSymbol_rescales (s := s.setInputs rest) h⟩
  · rw [countByte, if_neg h]
    obtain ⟨hv, ht⟩ := not_or.mp h
    exact ⟨0, BitVec.ofNat 32 (s.runtot.toNat + 1), fun rest =>
      countSymbol_below (s := s.setInputs rest) (Nat.lt_of_not_le hv) (Nat.lt_of_not_le ht)⟩

/-- A block that has counted the bytes `P` since `s`: the histogram is a function of `P`. -/
structure CountedFrom (s : State) (P : List Byte) (t : State) : Prop where
  counted : Counted P t
  histogram : (t.efreq, t.runtot) = histogramOf P
  dirty : t.eDirty = false
  out : t.out = s.out

theorem CountedFrom.mbCount {s t : State} {P : List Byte} (h : CountedFrom s P t) (b : Byte) :
    ∃ u r, Runs [.mbCount b] t u [r] ∧ CountedFrom s (P ++ [b]) u := by
  obtain ⟨hcounted, hhist, hdirty, hout⟩ := h
  obtain ⟨u, hu, hnext⟩ := hcounted.exec_mbCount b
  obtain ⟨d0, d1, hr⟩ := countSymbol_countByte b t
  have hexec := fun rest => exec_completes (s := t.setInputs rest) hcounted.fcause
    (protocolHolds_mbCount.mpr hcounted.est) rfl (hr rest)
  cases hu.symm.trans (hexec t.inputs)
  refine ⟨_, _, Runs.command hexec rfl, hnext, ?_, hdirty, hout⟩
  rw [histogramOf, List.foldl_append, ← histogramOf, ← hhist]
  rfl

theorem CountedFrom.mbCounts {s t : State} {P : List Byte} (h : CountedFrom s P t) (S : List Byte) :
    ∃ u rs, Runs (S.map .mbCount) t u rs ∧ CountedFrom s (P ++ S) u := by
  induction S generalizing P t with
  | nil => exact ⟨t, [], .nil t, by rwa [List.append_nil]⟩
  | cons b S ih =>
    obtain ⟨u, r, hu, hnext⟩ := h.mbCount b
    obtain ⟨v, rs, hv, hlast⟩ := ih hnext
    rw [List.append_assoc] at hlast
    exact ⟨v, r :: rs, hu.cons hv, hlast⟩

theorem runs_mbClear {s : State} (hn : s.fcause = none) (hd : s.eDirty = false) :
    Runs [.mbClear] s
      (answered { s with efreq := Vector.replicate 256 0, runtot := 0, est := .counting } 0 0 0)
      [⟨0, 0, 0, 0⟩] :=
  Runs.command (u := { s with efreq := Vector.replicate 256 0, runtot := 0, est := .counting })
    (fun rest => exec_mbClear (s := s.setInputs rest) hn hd) rfl

/-- MB_CLEAR and the first pass over the input. -/
theorem runs_histogram {s : State} (hn : s.fcause = none) (hd : s.eDirty = false) (S : List Byte) :
    ∃ t rs, Runs ([.mbClear] ++ S.map .mbCount) s t rs ∧ CountedFrom s S t := by
  obtain ⟨t, ht, hempty⟩ := exec_mbClear_counted hn hd
  cases ht.symm.trans (exec_mbClear hn hd)
  obtain ⟨u, rs, hu, hcounted⟩ := CountedFrom.mbCounts (s := s) ⟨hempty, rfl, hd, rfl⟩ S
  exact ⟨u, _ :: rs, (runs_mbClear hn hd).cons hu, hcounted⟩

end Sys2Proof.Machine
end

section
/-! The message of an input (44_message_procedures.md R160, R163, R164) as a bit sequence that is a function
of the input alone, and the commands after the first pass, which write it. -/

namespace Sys2Proof.Machine

/-! ### The triple of a symbol -/

/-- The triple of a symbol in the model of a frequency table (42_range_encoder.md R129). -/
def symbolCode (freq : Table 10) (b : Byte) : Word × Word × Word :=
  (BitVec.ofNat 32 (startOf (buildCum freq).1 b.toNat), BitVec.ofNat 32 (readEntry freq b.toNat).toNat,
    (buildCum freq).2.setWidth 32)

/-- A frequency table whose model's total the coder accepts as an operand (00_scope.md R9). -/
def Codable (freq : Table 10) : Prop := (buildCum freq).2.toNat < Config.maxTotal

/-- The operands of a symbol's triple are the model's numbers. -/
theorem symbolCode_toNat (freq : Table 10) (b : Byte) :
    (symbolCode freq b).1.toNat = startOf (buildCum freq).1 b.toNat ∧
      (symbolCode freq b).2.1.toNat = (readEntry freq b.toNat).toNat ∧
      (symbolCode freq b).2.2.toNat = (buildCum freq).2.toNat := by
  have hsum := (modelOk_buildCum freq).startOf_add_freq b.isLt
  have hcum := (readEntry (buildCum freq).1 b.toNat).isLt
  have htotal := (buildCum freq).2.isLt
  exact ⟨Nat.mod_eq_of_lt (by omega), Nat.mod_eq_of_lt (by omega),
    (BitVec.toNat_setWidth _ _).trans (Nat.mod_eq_of_lt (by omega))⟩

/-- The triple of a symbol that occurs passes its check (41_model_builder.md R109). -/
theorem Codable.accepted {freq : Table 10} (h : Codable freq) {b : Byte}
    (hb : readEntry freq b.toNat ≠ 0) : Accepted (symbolCode freq b) := by
  obtain ⟨hs, hw, ht⟩ := symbolCode_toNat freq b
  have hmodel := modelOk_buildCum freq
  have hsum := hmodel.startOf_add_freq b.isLt
  have hlast := hmodel.mono (i := b.toNat) (j := 255) (by have := b.isLt; omega) (by omega)
  have htotal := hmodel.2
  rw [Ne, eq_zero_iff_toNat] at hb
  rw [Codable] at h
  exact (checkTriple_iff _ _ _).mpr (by omega)

/-! ### The message of an input -/

/-- The triples of an input's symbols in the input's own model. -/
def messageTriples (S : List Byte) : List (Word × Word × Word) := S.map (symbolCode (freqOf S))

/-- The coded body of a list of triples and its trailer, which an empty list has not
(30_encoding.md R82 to R85). -/
def bodyBits (ts : List (Word × Word × Word)) : List Bool :=
  codedBits ts (0, 0xFFFFFFFF) ++
    if ts.isEmpty then [] else trailerBits (ts.foldl codedInterval (0, 0xFFFFFFFF)).1

/-- Msg(S) (44_message_procedures.md R160). -/
def messageBits (S : List Byte) : List Bool := headerBits (freqOf S) ++ bodyBits (messageTriples S)

/-- The model of an input can be coded with, and every byte of the input has a frequency
(41_model_builder.md R109). -/
theorem codable_freqOf (S : List Byte) :
    Codable (freqOf S) ∧ ∀ b ∈ S, readEntry (freqOf S) b.toNat ≠ 0 := by
  obtain ⟨t, -, -, hcounted, hhist, -⟩ := runs_histogram (s := State.reset) rfl rfl S
  obtain ⟨-, -, hbounds, hunused⟩ := hcounted
  rw [freqOf, ← hhist]
  obtain ⟨-, hceil, -⟩ := hbounds.buildCum
  exact ⟨hceil.trans_lt (by decide), fun b hb hzero => (hunused b).mp hzero hb⟩

theorem accepted_messageTriples (S : List Byte) : ∀ x ∈ messageTriples S, Accepted x := by
  obtain ⟨hcodable, hused⟩ := codable_freqOf S
  exact List.forall_mem_map.mpr fun b hb => hcodable.accepted (hused b hb)

/-- At most three bytes are pushed for a triple (44_message_procedures.md R163). -/
theorem length_codedBits {ts : List (Word × Word × Word)} {p : Word × Word}
    (hint : IntervalOk p.1 p.2) (hts : ∀ x ∈ ts, Accepted x) :
    ∃ B ≤ 3 * ts.length, (codedBits ts p).length = 8 * B := by
  induction ts generalizing p with
  | nil => exact ⟨0, Nat.zero_le _, rfl⟩
  | cons x ts ih =>
    obtain ⟨hx, hts⟩ := List.forall_mem_cons.mp hts
    obtain ⟨B, hB, hlen⟩ := ih (intervalOk_codedInterval hint hx) hts
    have hcount := (codedCount_spec hint hx).1
    refine ⟨codedCount p x + B, by rw [List.length_cons]; omega, ?_⟩
    rw [codedBits, List.length_append, length_codedBytes, hlen, Nat.mul_add]

/-- The message of the empty input (44_message_procedures.md R160). -/
theorem messageBits_nil : messageBits [] = List.replicate 2560 false := by
  have hentry : bitsMsbFirst 10 (0 : BitVec 10).toNat = List.replicate 10 false := by decide
  show headerBits (Vector.replicate 256 0) ++ [] = _
  rw [List.append_nil, headerBits, Vector.toList_replicate, List.flatMap_replicate, hentry,
    List.flatten_replicate_replicate]

theorem length_messageBits {S : List Byte} (hS : S ≠ []) :
    ∃ B ≤ 3 * S.length, (messageBits S).length = 2560 + 8 * B + 32 := by
  obtain ⟨B, hB, hlen⟩ := length_codedBits (p := (0, 0xFFFFFFFF)) intervalOk_initial
    (accepted_messageTriples S)
  have hne : (messageTriples S).isEmpty = false := by
    rw [messageTriples, List.isEmpty_map, List.isEmpty_eq_false_iff]
    exact hS
  refine ⟨B, by rwa [messageTriples, List.length_map] at hB, ?_⟩
  rw [messageBits, bodyBits, hne, List.length_append, List.length_append, length_headerBits,
    if_neg nofun, length_trailerBits]
  omega

/-! ### MB_FINAL, HDR_WRITE and ENC_INIT -/

/-- An unfaulted encoder on the interval `p`, with the final model of a frequency table. -/
structure EncoderAt (freq : Table 10) (p : Word × Word) (s : State) : Prop where
  fcause : s.fcause = none
  interval : (s.eLow, s.eRange) = p
  est : s.est = .final
  ecum : s.ecum = (buildCum freq).1
  eTotal : s.eTotal = (buildCum freq).2

theorem EncoderAt.setInputs {freq : Table 10} {p : Word × Word} {s : State} (h : EncoderAt freq p s)
    (l : List HostEvent) : EncoderAt freq p (s.setInputs l) :=
  ⟨h.fcause, h.interval, h.est, h.ecum, h.eTotal⟩

theorem runs_mbFinal {s : State} (hn : s.fcause = none) (hest : s.est = .counting) :
    Runs [.mbFinal] s
      (answered { s with ecum := (buildCum s.efreq).1, eTotal := (buildCum s.efreq).2, est := .final }
        ((buildCum s.efreq).2.setWidth 32) 0 0) [⟨0, (buildCum s.efreq).2.setWidth 32, 0, 0⟩] :=
  Runs.command
    (u := { s with ecum := (buildCum s.efreq).1, eTotal := (buildCum s.efreq).2, est := .final })
    (fun rest => exec_mbFinal (s := s.setInputs rest) hn hest) rfl

theorem runs_hdrWrite {s : State} (hn : s.fcause = none) (hest : s.est = .final)
    (hd : s.eDirty = false) :
    Runs [.hdrWrite] s (answered { s with out := s.out ++ headerBits s.efreq } 0 0 0)
      [⟨0, 0, 0, 0⟩] :=
  Runs.command (u := { s with out := s.out ++ headerBits s.efreq })
    (fun rest => exec_hdrWrite (s := s.setInputs rest) hn hest hd) rfl

theorem runs_encInit {s : State} (hn : s.fcause = none) :
    Runs [.encInit] s
      (answered { s with eLow := 0, eRange := 0xFFFFFFFF, eDirty := false } 0 0 0) [⟨0, 0, 0, 0⟩] :=
  Runs.command (u := { s with eLow := 0, eRange := 0xFFFFFFFF, eDirty := false })
    (fun rest => encInitConstructsTheCoder.2 (s.setInputs rest) hn) rfl

/-- Between the passes the block holds the model of the input and a fresh coder, and has written the
header. -/
theorem CountedFrom.header {s t : State} {S : List Byte} (h : CountedFrom s S t) :
    ∃ u rs, Runs [.mbFinal, .hdrWrite, .encInit] t u rs ∧ EncoderAt (freqOf S) (0, 0xFFFFFFFF) u ∧
      u.eDirty = false ∧ u.out = s.out ++ headerBits (freqOf S) := by
  obtain ⟨⟨hn, hest, -, -⟩, hhist, hd, hout⟩ := h
  have hfreq : t.efreq = freqOf S := congrArg Prod.fst hhist
  rw [← hfreq, ← hout]
  exact ⟨_, _, (runs_mbFinal hn hest).cons (.cons (runs_hdrWrite hn rfl hd) (runs_encInit hn)),
    ⟨hn, rfl, rfl, rfl, rfl⟩, rfl, rfl⟩

/-! ### ENC_SYM -/

section
variable {freq : Table 10} (hfreq : Codable freq) {p : Word × Word} (hint : IntervalOk p.1 p.2)
  {s : State} (h : EncoderAt freq p s)
include hfreq hint h

section
variable {b : Byte} (hb : readEntry freq b.toNat ≠ 0)
include hb

/-- ENC_SYM of a symbol that occurs is the encoding of its triple (42_range_encoder.md R123). -/
theorem EncoderAt.exec_encSym :
    exec (.encSym b) s = .next (answered
      (encodedState s (narrowedTo p (symbolCode freq b)) (codedCount p (symbolCode freq b)))
      (BitVec.ofNat 32 (codedCount p (symbolCode freq b)))
      (symbolCode freq b).1 (symbolCode freq b).2.1) := by
  obtain ⟨hn, rfl, hest, hcum, htot⟩ := h
  obtain ⟨hw1, -, hlt, hle⟩ := (checkTriple_iff _ _ _).mp (hfreq.accepted hb)
  obtain ⟨hs, hw, ht⟩ := symbolCode_toNat freq b
  rw [hw] at hw1
  rw [ht, ← htot] at hlt
  rw [hs, hw, ht, ← htot] at hle
  have hentry := (modelOk_buildCum freq).startOf_add_freq b.isLt
  have hp : narrowedTo (s.eLow, s.eRange) (symbolCode freq b) = narrowedPair s.eLow s.eRange
      (startOf (buildCum freq).1 b.toNat) (readEntry freq b.toNat).toNat s.eTotal.toNat := by
    rw [narrowedTo, hs, hw, ht, htot]
  rw [← hcum] at hentry hle hp
  obtain ⟨n, hn3, hcount, hnext⟩ := encSymEncodesTheSymbolsTriple b s _ _ hn hest rfl hentry.symm hw1 hle
    hlt (hint.total_le hlt) _ hp
  obtain rfl : codedCount (s.eLow, s.eRange) (symbolCode freq b) = n :=
    hcount.loopCount_eq (Nat.lt_succ_of_le hn3)
  rw [hcum] at hnext
  exact hnext

/-- The model stays as it is (44_message_procedures.md R165). -/
theorem EncoderAt.encSym :
    ∃ t r, Runs [.encSym b] s t [r] ∧ EncodedTo [symbolCode freq b] s t ∧
      EncoderAt freq (codedInterval p (symbolCode freq b)) t := by
  have hexec := fun rest => (h.setInputs rest).exec_encSym hfreq hint hb
  obtain ⟨hn, rfl, hest, hcum, htot⟩ := h
  refine ⟨_, _, Runs.command (u := encodedState s _ _) hexec rfl, ⟨hn, rfl, (Bool.or_true _).symm, ?_,
    _, rfl, List.forall_mem_singleton.mpr rfl⟩, hn, rfl, hest, hcum, htot⟩
  rw [codedBits, codedBits, List.append_nil]
  rfl

end

/-- The second pass over a list of symbols that occur. -/
theorem EncoderAt.encSyms {S : List Byte} (hS : ∀ b ∈ S, readEntry freq b.toNat ≠ 0) :
    ∃ t rs, Runs (S.map .encSym) s t rs ∧ EncodedTo (S.map (symbolCode freq)) s t := by
  induction S generalizing p s with
  | nil =>
    exact ⟨s, [], .nil s, h.fcause, rfl, (Bool.or_false _).symm, (List.append_nil _).symm, [],
      (List.append_nil _).symm, nofun⟩
  | cons b S ih =>
    obtain ⟨hb, hS⟩ := List.forall_mem_cons.mp hS
    obtain ⟨t, r, ht, hto, hat⟩ := h.encSym hfreq hint hb
    obtain ⟨u, rs, hu, hto'⟩ := ih (intervalOk_codedInterval hint (hfreq.accepted hb)) hat hS
    exact ⟨u, r :: rs, ht.cons hu, hto.cons hto'⟩

end

/-! ### ENC_FLUSH -/

theorem runs_encFlush {s : State} (hn : s.fcause = none) :
    ∃ t r, Runs [.encFlush] s t [r] ∧
      t.out = s.out ++ if s.eDirty then trailerBits s.eLow else [] := by
  cases hd : s.eDirty with
  | false =>
    exact ⟨_, _, Runs.command (u := s) (fun rest => exec_encFlush_clean (s := s.setInputs rest) hn hd) rfl,
      (List.append_nil _).symm⟩
  | true =>
    exact ⟨_, _, Runs.command (u := { s with
      eLow := 0, eRange := 0xFFFFFFFF, eDirty := false, out := s.out ++ trailerBits s.eLow })
      (fun rest => exec_encFlush_dirty (s := s.setInputs rest) hn hd) rfl, rfl⟩

/-! ### ENCODE_MESSAGE -/

/-- ENCODE_MESSAGE appends the message of its input and does not fault. -/
theorem runs_encodeMessage (S : List Byte) {s : State} (hn : s.fcause = none)
    (hd : s.eDirty = false) :
    ∃ t rs, Runs (encodeMessage S) s t rs ∧ t.out = s.out ++ messageBits S := by
  obtain ⟨hcodable, hused⟩ := codable_freqOf S
  obtain ⟨t, rs, ht, hcounted⟩ := runs_histogram hn hd S
  obtain ⟨u, rs', hu, hat, hud, huout⟩ := hcounted.header
  obtain ⟨v, rs'', hv, hvn, hinterval, hvd, hvout, -⟩ := hat.encSyms hcodable intervalOk_initial hused
  obtain ⟨w, r, hw, hwout⟩ := runs_encFlush hvn
  refine ⟨w, _, ((ht.append hu).append hv).append hw, ?_⟩
  rw [hat.interval] at hinterval hvout
  rw [hud, Bool.false_or] at hvd
  have hlow : v.eLow = ((messageTriples S).foldl codedInterval (0, 0xFFFFFFFF)).1 :=
    congrArg Prod.fst hinterval
  rw [hwout, hvd, hlow, hvout, huout, messageBits, bodyBits, ← messageTriples]
  cases (messageTriples S).isEmpty <;> simp

/-- Settles O57: every number the sequence computes is a function of the input, so the message is. -/
theorem encodeMessageIsAFunctionOfItsInput : Obligations.EncodeMessageIsAFunctionOfItsInput := by
  intro S
  refine ⟨messageBits S, fun hS => hS ▸ messageBits_nil, length_messageBits, fun s hn hd => ?_⟩
  obtain ⟨t, rs, hrun, hout⟩ := runs_encodeMessage S hn hd
  exact ⟨_, rs, hrun.presenting, hout, hrun.responses, hrun.clean⟩

end Sys2Proof.Machine
end

section
/-! Decoding a message (44_message_procedures.md R161 to R163): the header gives the model back, and each
DEC_SYM finds the symbol that was encoded. -/

namespace Sys2Proof.Machine

/-! ### The symbol of a frequency in its interval -/

/-- The symbol whose interval holds f is the smallest above f (43_range_decoder.md R145). -/
theorem ModelOk.leastAbove {freq : Table 10} {cum : Table 18} {total : BitVec 18} {f m : Nat}
    (h : ModelOk freq cum total) (hm : m < 256) (hge : startOf cum m ≤ f)
    (hlt : f < startOf cum m + (readEntry freq m).toNat) : LeastAbove cum f m := by
  refine ⟨hm, h.startOf_add_freq hm ▸ hlt, fun j hj => ?_⟩
  rw [startOf, if_neg (by omega)] at hge
  exact (h.mono (by omega) (by omega)).trans hge

theorem LeastAbove.unique {cum : Table 18} {f m k : Nat} (h : LeastAbove cum f m)
    (h' : LeastAbove cum f k) : m = k := by
  obtain ⟨-, habove, hbelow⟩ := h
  obtain ⟨-, habove', hbelow'⟩ := h'
  rcases Nat.lt_trichotomy m k with hlt | heq | hgt
  · exact absurd habove (Nat.not_lt_of_le (hbelow' m hlt))
  · exact heq
  · exact absurd habove' (Nat.not_lt_of_le (hbelow k hgt))

/-- Lookup of an f in a symbol's interval (43_range_decoder.md R145). -/
theorem ModelOk.lookup_of_mem {freq : Table 10} {cum : Table 18} {total : BitVec 18} {f : Word} {m : Nat}
    (h : ModelOk freq cum total) (hm : m < 256) (hge : startOf cum m ≤ f.toNat)
    (hlt : f.toNat < startOf cum m + (readEntry freq m).toNat) :
    lookup cum f = some (m, startOf cum m, (readEntry freq m).toNat) := by
  have hleast := h.leastAbove hm hge hlt
  obtain ⟨k, hk, hl⟩ := h.exists_lookup (hleast.2.1.trans_le (h.mono (by omega) (by omega)))
  rwa [hk.unique hleast] at hl

/-! ### HDR_READ and DEC_INIT -/

/-- Bank D holds the model of a frequency table, and the decoder may use it. -/
structure DecoderModel (freq : Table 10) (u : State) : Prop where
  dst : u.dst = .final
  dfreq : u.dfreq = freq
  dcum : u.dcum = (buildCum freq).1
  dTotal : u.dTotal = (buildCum freq).2

theorem DecoderModel.setInputs {freq : Table 10} {u : State} (h : DecoderModel freq u)
    (l : List HostEvent) : DecoderModel freq (u.setInputs l) :=
  ⟨h.dst, h.dfreq, h.dcum, h.dTotal⟩

theorem readTable_setInputs (u : State) (l : List HostEvent) :
    readTable (u.setInputs l) = readTable u := rfl

theorem modelRead_setInputs (u : State) (l : List HostEvent) (x : DState) :
    modelRead (u.setInputs l) x = (modelRead u x).setInputs l := by
  unfold modelRead
  rw [readTable_setInputs]
  generalize buildCum (readTable u) = model
  rfl

/-- HDR_READ of a header gives the model of the table it was written from (41_model_builder.md R108). -/
theorem runs_hdrRead {freq : Table 10} {u : State} {bits : List Bool} (hn : u.fcause = none)
    (hfreq : Codable freq) (hu : unread u = headerBits freq ++ bits) :
    ∃ v r, Runs [.hdrRead] u v [r] ∧ v.fcause = none ∧ DecoderModel freq v ∧ unread v = bits := by
  obtain rfl : readTable u = freq := by rw [readTable, hu, headerTable_headerBits]
  have hlen : 2560 ≤ (unread u).length := by
    rw [hu, List.length_append, length_headerBits]
    omega
  have hexec : ∀ rest, exec .hdrRead (u.setInputs rest) = .next (answered
      ((modelRead u .final).setInputs rest) ((buildCum (readTable u)).2.setWidth 32) 0 0) := by
    intro rest
    have hread := exec_hdrRead_final (s := u.setInputs rest) hn hlen
    rw [readTable_setInputs, modelRead_setInputs] at hread
    exact hread hfreq
  refine ⟨_, _, Runs.command hexec (by rw [modelRead]), by rwa [answered_fcause, modelRead_fcause],
    ⟨rfl, rfl, rfl, rfl⟩, ?_⟩
  rw [unread_answered, unread_modelRead, hu, List.drop_left' (length_headerBits _)]

/-- DEC_INIT puts the decoder at the start of the source and keeps the model (43_range_decoder.md R141). -/
theorem DecoderModel.decInit {freq : Table 10} {u : State} (h : DecoderModel freq u)
    (hn : u.fcause = none) (hlen : 32 ≤ (unread u).length) :
    ∃ v r, Runs [.decInit] u v [r] ∧ DecoderModel freq v ∧ DecoderAt (0, 0xFFFFFFFF) (unread u) v :=
  ⟨_, _, Runs.command (u := { u with
      dLow := 0, dRange := 0xFFFFFFFF, dCode := BitVec.ofNat 32 (natOfBits ((unread u).take 32)),
      dcs := .ready, srcpos := u.srcpos + 32 })
    (d0 := BitVec.ofNat 32 (natOfBits ((unread u).take 32)))
    (fun rest => exec_decInit (s := u.setInputs rest) hn hlen) rfl,
    ⟨h.dst, h.dfreq, h.dcum, h.dTotal⟩, hn, rfl, rfl, rfl, List.drop_drop.symm⟩

/-! ### DEC_SYM -/

section
variable {freq : Table 10} (hfreq : Codable freq) {p : Word × Word} (hint : IntervalOk p.1 p.2)
  {bits : List Bool}
include hfreq hint

section
variable {b : Byte} (hb : readEntry freq b.toNat ≠ 0)
  (hbits : BitsWithin (codedInterval p (symbolCode freq b)) bits) {u : State}
  (hmodel : DecoderModel freq u) (h : DecoderAt p (codedBytes p (symbolCode freq b) ++ bits) u)
include hb hbits hmodel h

/-- The decoder's lookup finds the symbol that was encoded (43_range_decoder.md R148). -/
theorem DecoderAt.lookup_symbol :
    lookup u.dcum (stepFrequency u) =
      some (b.toNat, startOf u.dcum b.toNat, (readEntry u.dfreq b.toNat).toNat) := by
  obtain ⟨hge, hlt⟩ := h.frequency_mem hint (hfreq.accepted hb) hbits
  obtain ⟨hs, hw, -⟩ := symbolCode_toNat freq b
  obtain ⟨-, rfl, hcum, htot⟩ := hmodel
  rw [hs] at hge hlt
  rw [hw] at hlt
  have hf : stepFrequency u =
      (u.dCode - u.dLow) / (u.dRange / (symbolCode u.dfreq b).2.2) := by
    rw [stepFrequency, stepTotal, htot]
    rfl
  rw [hcum, hf]
  exact (modelOk_buildCum u.dfreq).lookup_of_mem b.isLt hge hlt

/-- DEC_SYM decodes the symbol that was encoded, to the encoder's next interval. -/
theorem DecoderAt.exec_decSym :
    exec .decSym u = .next (answered
      { decodedState (dividedState u) (narrowedTo p (symbolCode freq b))
          (codedCount p (symbolCode freq b)) with dcs := .ready }
      (BitVec.ofNat 32 b.toNat) (symbolCode freq b).1 (symbolCode freq b).2.1) := by
  have hx := hfreq.accepted hb
  have hl := h.lookup_symbol hfreq hint hb hbits hmodel
  obtain ⟨hn3, hcount⟩ := codedCount_spec hint hx
  obtain ⟨-, -, hlt, -⟩ := (checkTriple_iff _ _ _).mp hx
  obtain ⟨hn, hdcs, rfl, -, hsource⟩ := h
  obtain ⟨hdst, rfl, hcum, htot⟩ := hmodel
  have hok : ModelOk u.dfreq u.dcum u.dTotal := by
    rw [hcum, htot]
    exact modelOk_buildCum u.dfreq
  have htriple : symbolCode u.dfreq b = symbolTriple u b.toNat := by
    rw [symbolTriple, stepTotal, hcum, htot]
    rfl
  have hle : u.dTotal.toNat ≤ u.dRange.toNat := htot ▸ hint.total_le hfreq
  have hbytes : 8 * codedCount (u.dLow, u.dRange) (symbolCode u.dfreq b) ≤ (unread u).length := by
    have hlen := hbits.1
    rw [hsource, List.length_drop, List.length_append, length_codedBytes]
    omega
  rw [htriple] at hcount hbytes hn3 ⊢
  exact exec_completes hn (protocolHolds_decSym.mpr ⟨hdcs, hdst⟩) rfl
    ((decodeSymbol_of_lookup hok hle hl hn3 hcount).trans (if_pos hbytes))

/-- After a DEC_SYM the decoder stands where the encoder stood after the symbol, and its model stays as it
is (43_range_decoder.md R148, 44_message_procedures.md R165). -/
theorem DecoderAt.decSym :
    ∃ v r, Runs [.decSym] u v [r] ∧ DecoderAt (codedInterval p (symbolCode freq b)) bits v ∧
      DecoderModel freq v ∧ r.d0 = b.setWidth 32 := by
  have hexec := fun rest => (h.setInputs rest).exec_decSym hfreq hint hb hbits (hmodel.setInputs rest)
  have hlen := length_codedBytes p (symbolCode freq b)
  refine ⟨_, _, Runs.command (u := { decodedState (dividedState u) (narrowedTo p (symbolCode freq b))
    (codedCount p (symbolCode freq b)) with dcs := .ready }) hexec rfl,
    ⟨h.fcause, rfl, rfl, ?_, ?_⟩, ⟨hmodel.dst, hmodel.dfreq, hmodel.dcum, hmodel.dTotal⟩,
    BitVec.ofNat_toNat 32 b⟩
  · show codeAfter _ u.dCode (unread u) = _
    rw [h.code, h.source, codeAfter_window hlen hbits.1]
  · show unread (decodedState u (narrowedTo p (symbolCode freq b)) _) = _
    rw [unread_decodedState, h.source, List.drop_drop, Nat.add_comm, ← List.drop_drop,
      List.drop_left' hlen]

end

/-- The DEC_SYMs of the symbols that were encoded. -/
theorem DecoderAt.decSyms {S : List Byte} (hS : ∀ b ∈ S, readEntry freq b.toNat ≠ 0)
    (hbits : BitsWithin ((S.map (symbolCode freq)).foldl codedInterval p) bits) {u : State}
    (hmodel : DecoderModel freq u)
    (h : DecoderAt p (codedBits (S.map (symbolCode freq)) p ++ bits) u) :
    ∃ v qs, Runs (List.replicate S.length .decSym) u v qs ∧
      DecoderAt ((S.map (symbolCode freq)).foldl codedInterval p) bits v ∧
      qs.map (·.d0) = S.map (·.setWidth 32) := by
  induction S generalizing p u with
  | nil => exact ⟨u, [], .nil u, h, rfl⟩
  | cons b S ih =>
    obtain ⟨hb, hS⟩ := List.forall_mem_cons.mp hS
    have hint' := intervalOk_codedInterval hint (hfreq.accepted hb)
    have hts := List.forall_mem_map.mpr fun c hc => hfreq.accepted (hS c hc)
    rw [List.map_cons, codedBits, List.append_assoc] at h
    obtain ⟨v, r, hv, hat, hmodel', hr⟩ :=
      h.decSym hfreq hint hb (bitsWithin_codedBits hint' hts hbits) hmodel
    obtain ⟨w, qs, hw, hlast, hqs⟩ := ih hint' hS hbits hmodel' hat
    exact ⟨w, r :: qs, hv.cons hw, hlast, by rw [List.map_cons, hr, hqs, List.map_cons]⟩

end

/-! ### DECODE_MESSAGE -/

/-- A source with a coded body and its trailer decodes to the symbols, and is left at the end of the
trailer. -/
theorem DecoderModel.decodeBody {freq : Table 10} (hfreq : Codable freq) {S : List Byte}
    (hS : ∀ b ∈ S, readEntry freq b.toNat ≠ 0) (hne : S ≠ []) {u : State} {rest : List Bool}
    (h : DecoderModel freq u) (hn : u.fcause = none)
    (hu : unread u = bodyBits (S.map (symbolCode freq)) ++ rest) :
    ∃ v r qs, Runs ([.decInit] ++ List.replicate S.length .decSym) u v (r :: qs) ∧ unread v = rest ∧
      qs.map (·.d0) = S.map (·.setWidth 32) := by
  have hts : ∀ x ∈ S.map (symbolCode freq), Accepted x :=
    List.forall_mem_map.mpr fun b hb => hfreq.accepted (hS b hb)
  have hempty : (S.map (symbolCode freq)).isEmpty = false := by
    rw [List.isEmpty_map, List.isEmpty_eq_false_iff]
    exact hne
  rw [bodyBits, hempty, if_neg nofun, List.append_assoc] at hu
  have hbits := bitsWithin_trailerBits (bits := rest)
    (intervalOk_foldl (p := (0, 0xFFFFFFFF)) intervalOk_initial hts)
  have hlen : 32 ≤ (unread u).length := by
    rw [hu, List.length_append]
    exact hbits.1.trans (Nat.le_add_left _ _)
  obtain ⟨v, r, hv, hmodel, hat⟩ := h.decInit hn hlen
  rw [hu] at hat
  obtain ⟨w, qs, hw, hlast, hqs⟩ := hat.decSyms hfreq intervalOk_initial hS hbits hmodel
  exact ⟨w, r, qs, hv.cons hw, by rw [hlast.source, List.drop_left' (length_trailerBits _)], hqs⟩

/-- DECODE_MESSAGE of the message of an input and of the input's length answers the input. -/
theorem runs_decodeMessage (S : List Byte) {u : State} {rest : List Bool} (hn : u.fcause = none)
    (hu : unread u = messageBits S ++ rest) :
    ∃ v qs, Runs (decodeMessage S.length) u v qs ∧ unread v = rest ∧
      (qs.drop 2).map (·.d0) = S.map (·.setWidth 32) := by
  obtain ⟨hcodable, hused⟩ := codable_freqOf S
  rw [messageBits, List.append_assoc] at hu
  obtain ⟨v, r, hv, hvn, hmodel, hbody⟩ := runs_hdrRead hn hcodable hu
  by_cases hne : S = []
  · subst hne
    exact ⟨v, [r], hv, hbody, rfl⟩
  · obtain ⟨w, r', qs, hw, hrest, hqs⟩ := hmodel.decodeBody hcodable hused hne hvn hbody
    have hlen : S.length ≠ 0 := mt List.length_eq_zero_iff.mp hne
    rw [decodeMessage, if_neg hlen]
    exact ⟨w, _, hv.append hw, hrest, hqs⟩

/-- Settles O58: the header carries the model and the body the symbols' triples, in which the decoder
follows the encoder symbol by symbol. -/
theorem decodingAnEncodedMessageGivesItBack : Obligations.DecodingAnEncodedMessageGivesItBack := by
  intro S s u hn hd hu
  obtain ⟨t, rs, henc, hout⟩ := runs_encodeMessage S hn hd
  refine ⟨_, messageBits S, rs, henc.presenting, hout, henc.responses, henc.clean,
    fun rest hsource => ?_⟩
  obtain ⟨v, qs, hdec, hrest, hqs⟩ := runs_decodeMessage S hu hsource
  exact ⟨_, qs, hdec.presenting, hdec.responses, hdec.clean, hrest, hqs⟩

end Sys2Proof.Machine
end

section
/-! The faults a command raises before its pseudocode runs (60_exceptions.md R183 to R185): an illegal word
or register number, a broken protocol condition, a broken contract condition. -/

namespace Sys2Proof.Machine

/-! ### PROTOCOL -/

theorem protocolHolds_mbClear {s : State} : protocolHolds .mbClear s = true ↔ s.eDirty = false := by
  rw [protocolHolds, Bool.not_eq_true']

/-- An unfaulted command in a state its protocol condition `P` forbids (60_exceptions.md R184). -/
theorem exec_protocol_of_not {i : Instr} {s : State} {P : Prop} (hn : s.fcause = none)
    (hp : protocolHolds i s = true ↔ P) (h : ¬P) :
    exec i s = .next (faultedWith s .protocol (encode i).cw) :=
  exec_protocol hn (Bool.eq_false_iff.mpr (mt hp.mp h))

/-- Settles O40: each disjunct denies the protocol condition of its command. -/
theorem brokenProtocolConditionsFault : Obligations.BrokenProtocolConditionsFault := by
  intro s hn i hbroken
  rcases hbroken with ⟨⟨n, rfl⟩, h⟩ | ⟨⟨n, rfl⟩, h⟩ | ⟨⟨n, rfl⟩ | ⟨n, rfl⟩ | ⟨f, rfl⟩, h⟩ | ⟨rfl, h⟩ |
    ⟨⟨b, rfl⟩ | rfl, h⟩ | ⟨rfl, h⟩ | ⟨⟨n, rfl⟩, h⟩ | ⟨⟨a, rfl⟩, h⟩ | ⟨⟨a, b, c, rfl⟩, h⟩ | ⟨rfl, h⟩
  · exact exec_protocol_of_not hn (protocolHolds_rdEfreq n) (not_not.mpr h)
  · exact exec_protocol_of_not hn (protocolHolds_rdEcum n) h
  · exact exec_protocol_of_not hn (protocolHolds_rdDfreq n) h
  · exact exec_protocol_of_not hn (protocolHolds_rdDcum n) h
  · exact exec_protocol_of_not hn protocolHolds_decLookup h
  · exact exec_protocol_of_not hn protocolHolds_mbClear ((Bool.not_eq_false _).mpr h)
  · exact exec_protocol_of_not hn protocolHolds_mbCount h
  · exact exec_protocol_of_not hn protocolHolds_mbFinal h
  · refine exec_protocol_of_not hn protocolHolds_hdrWrite (not_and_or.mpr ?_)
    exact h.imp_right (Bool.not_eq_false _).mpr
  · exact exec_protocol_of_not hn protocolHolds_encSym h
  · exact exec_protocol_of_not hn protocolHolds_decGetfreq h
  · exact exec_protocol_of_not hn protocolHolds_decDecode h
  · exact exec_protocol_of_not hn protocolHolds_decSym (not_and_or.mpr h)

/-! ### CONTRACT -/

/-- A broken contract condition of an unfaulted command whose protocol condition holds
(60_exceptions.md R185). -/
theorem exec_contract {i : Instr} {s : State} (hn : s.fcause = none)
    (hp : protocolHolds i s = true) (hc : contractHolds i s = false) :
    exec i s = .next (faultedWith s .contract (encode i).cw) := by
  rw [exec_eq_runCommand, runCommand, hn, hp, hc, ← takeFault_eq_faultedWith]
  rfl

theorem checkTriple_eq_false_iff (start width total : Nat) :
    checkTriple start width total = false ↔
      width = 0 ∨ total = 0 ∨ 65536 ≤ total ∨ total < start + width := by
  have hmax : Config.maxTotal = 65536 := rfl
  rw [← Bool.not_eq_true, checkTriple_iff, hmax]
  omega

/-- A triple DEC_DECODE rejects is a broken one, or one whose total is not DEC_GETFREQ's. -/
theorem contractHolds_decDecode_eq_false_iff {start width total : Word} {s : State} :
    contractHolds (.decDecode start width total) s = false ↔
      total.toNat ≠ s.dTot.toNat ∨ checkTriple start.toNat width.toNat total.toNat = false := by
  have htot : total = s.dTot.setWidth 32 ↔ total.toNat = s.dTot.toNat := by
    have hlt := s.dTot.isLt
    rw [← BitVec.toNat_inj, BitVec.toNat_setWidth, Nat.mod_eq_of_lt (by omega)]
  rw [contractHolds, Bool.and_eq_false_iff, beq_eq_false_iff_ne, ne_eq, htot]

/-- The triple of an unused symbol has width 0 (42_range_encoder.md R129). -/
theorem ModelOk.tripleOf_width_eq_zero {freq : Table 10} {cum : Table 18} {total : BitVec 18} {m : Nat}
    (h : ModelOk freq cum total) (hm : m < 256) (hzero : readEntry freq m = 0) :
    (tripleOf cum m).2 = 0 := by
  rw [tripleOf_eq, (h.readEntry_eq_zero_iff hm).mp hzero, Nat.sub_self]

/-- Settles O41: each premise breaks a conjunct of the contract that its command checks first. -/
theorem brokenContractsFaultBeforeAnyChange : Obligations.BrokenContractsFaultBeforeAnyChange := by
  intro s start width total hn
  have hdecode (hdcs : s.dcs = .pending) (h : total.toNat ≠ s.dTot.toNat ∨
      checkTriple start.toNat width.toNat total.toNat = false) :
      exec (.decDecode start width total) s = .next (faultedWith s .contract 0x32000000) :=
    exec_contract hn (protocolHolds_decDecode.mpr hdcs) (contractHolds_decDecode_eq_false_iff.mpr h)
  refine ⟨fun hbroken => ?_, fun hdcs htot => hdecode hdcs (.inl htot), fun hdcs htotal => ?_,
    fun sym hest hmodel hzero => ?_⟩
  · have hc := (checkTriple_eq_false_iff _ _ _).mpr hbroken
    exact ⟨exec_contract hn rfl hc, fun hdcs => hdecode hdcs (.inr hc)⟩
  · refine exec_contract hn (protocolHolds_decGetfreq.mpr hdcs) (decide_eq_false ?_)
    have hmax : Config.maxTotal = 65536 := rfl
    omega
  · have hwidth := hmodel.tripleOf_width_eq_zero sym.isLt hzero
    exact exec_contract hn (protocolHolds_encSym.mpr hest)
      ((checkTriple_eq_false_iff _ _ _).mpr (.inl hwidth))

/-! ### ILLEGAL_CMD -/

/-- An illegal word at the command port (30_encoding.md R77, 40_system.md R90). -/
theorem runWords_illegal {c : Command} (h : c.wellFormed = false) (s : State) :
    (s.fcause = none → runWords c s = .next (faultedWith s .illegalCmd c.cw)) ∧
      ∀ x, s.fcause = some x → runWords c s = .next (refusedIn s x) := by
  have hrun : runWords c s = illegalCommand c.cw s := by
    cases hdec : decode c with
    | ok i => exact absurd (decode_ok_iff_wellFormed.mp ⟨i, hdec⟩) (Bool.eq_false_iff.mp h)
    | error e => rw [runWords, hdec]
  rw [hrun, illegalCommand]
  refine ⟨fun hn => ?_, fun x hx => ?_⟩
  · rw [hn, ← takeFault_eq_faultedWith]
  · rw [hx, ← refuse_eq_refusedIn]

theorem toNat_imm8 (c : Command) : c.imm8.toNat = c.cw.toNat % 256 :=
  (BitVec.extractLsb'_toNat ..).trans (by rw [Nat.shiftRight_zero])

/-- The word of RD_REG but for its immediate (30_encoding.md R76). -/
theorem cw_eq_of_rdReg {c : Command} (h : c.cw.toNat / 256 = 0x020000) :
    c.cw = (encode (.rdReg c.imm8)).cw := by
  refine BitVec.eq_of_toNat_eq ((toNat_commandWord 0x02 c.imm8).trans ?_).symm
  rw [toNat_imm8]
  show 2 * 2 ^ 24 + _ = _
  omega

theorem decode_eq_rdReg {c : Command} (h : c.cw.toNat / 256 = 0x020000) :
    decode c = .ok (.rdReg c.imm8) := by
  have hcw := cw_eq_of_rdReg h
  have hop : c.opcode = 0x02 := (opcode_congr hcw).trans (opcode_mk _ _ _ _ _)
  rw [decode_congr hcw (decodeOpcode_eq_of_cw_eq hcw (by rw [hop]; decide))]
  exact decodeOfEncodeIsIdentity (.rdReg c.imm8)

/-- RD_REG of a number with no register at the command port (40_system.md R93). -/
theorem runWords_rdReg_reserved {c : Command} (h : c.cw.toNat / 256 = 0x020000) {s : State}
    (hreg : registerValue c.imm8 s = none) :
    (s.fcause = none → runWords c s = .next (faultedWith s .illegalCmd c.cw)) ∧
      ∀ x, s.fcause = some x → runWords c s = .next (refusedIn s x) := by
  have hraise := readRegister_of_none hreg
  rw [runWords_of_decode_ok (decode_eq_rdReg h), cw_eq_of_rdReg h]
  exact ⟨fun hn => exec_raises hn rfl rfl hraise, fun x hx => exec_refused_raise hx hraise⟩

/-- Settles O44: an illegal word decodes to no command, and a reserved number to an RD_REG that raises. -/
theorem illegalCommandsFault : Obligations.IllegalCommandsFault := by
  intro s c rest hin h
  rw [step_of_inputs_cons hin]
  rcases h with hillegal | ⟨hreg, hreserved⟩
  · exact runWords_illegal hillegal (s.setInputs rest)
  · rw [← toNat_imm8] at hreserved
    exact runWords_rdReg_reserved hreg (registerValue_eq_none (s.setInputs rest) hreserved)

end Sys2Proof.Machine
end

section
/-! Every step ends (70_reset_and_hazards.md R224, R225; log 7): no pseudocode whose contract holds diverges,
and a command whose contract is broken does not run its pseudocode. -/

namespace Sys2Proof.Machine

/-! ### The pseudocode ends -/

theorem primeCode_ne_diverged (k : Nat) (s : State) : primeCode k s ≠ .diverged := by
  induction k generalizing s with
  | zero => nofun
  | succ k ih => exact Res.bind_ne_diverged (pop_ne_diverged 8 s) fun _ _ => ih _

theorem readHeader_ne_diverged (s : State) : readHeader s ≠ .diverged := by
  refine Res.bind_ne_diverged (readEntries_ne_diverged 256 _) fun _ t => ?_
  simp only
  split <;> nofun

theorem getFreq_ne_diverged (total : Word) (s : State) : getFreq total s ≠ .diverged := by
  unfold getFreq
  simp only
  split <;> nofun

theorem lookupSymbol_ne_diverged (f : Word) (s : State) : lookupSymbol f s ≠ .diverged := by
  unfold lookupSymbol
  split <;> nofun

theorem flushCoder_ne_diverged (s : State) : flushCoder s ≠ .diverged := by
  unfold flushCoder
  split <;> nofun

theorem countSymbol_ne_diverged (b : Byte) (s : State) : countSymbol b s ≠ .diverged := by
  unfold countSymbol
  simp only
  split <;> nofun

theorem readRegister_ne_diverged (n : Byte) (s : State) : readRegister n s ≠ .diverged := by
  unfold readRegister
  split <;> nofun

/-- A triple that passed its check on naturals passes it as operand words (42_range_encoder.md R123). -/
theorem checkTriple_words {start width : Nat} {total : BitVec 18}
    (h : checkTriple start width total.toNat = true) :
    checkTriple (BitVec.ofNat 32 start).toNat (BitVec.ofNat 32 width).toNat
      (total.setWidth 32).toNat = true := by
  obtain ⟨-, -, hlt, hle⟩ := (checkTriple_iff _ _ _).mp h
  have hmax : Config.maxTotal = 2 ^ 16 := rfl
  rwa [BitVec.toNat_ofNat, BitVec.toNat_ofNat, BitVec.toNat_setWidth, Nat.mod_eq_of_lt (by omega),
    Nat.mod_eq_of_lt (by omega), Nat.mod_eq_of_lt (by omega)]

/-- A command whose contract holds runs its pseudocode to an end, from every state: only the encoder's
loop needs the contract, for from a zero range it would not end. -/
theorem pseudocode_ne_diverged {i : Instr} {s : State} (hc : contractHolds i s = true) :
    pseudocode i s ≠ .diverged := by
  cases i with
  | rdReg n => exact readRegister_ne_diverged n s
  | mbCount b => exact countSymbol_ne_diverged b s
  | hdrRead => exact readHeader_ne_diverged s
  | encEncode start width total =>
    exact Res.bind_ne_diverged (encodeTriple_ne_diverged s hc) fun _ _ => nofun
  | encSym sym =>
    exact Res.bind_ne_diverged (encodeTriple_ne_diverged s (checkTriple_words hc)) fun _ _ => nofun
  | encFlush => exact flushCoder_ne_diverged s
  | decInit => exact Res.bind_ne_diverged (primeCode_ne_diverged 4 _) fun _ _ => nofun
  | decGetfreq total => exact Res.bind_ne_diverged (getFreq_ne_diverged total s) fun _ _ => nofun
  | decDecode start width total =>
    exact Res.bind_ne_diverged (commitTriple_ne_diverged start width s) fun _ _ => nofun
  | decLookup f => exact lookupSymbol_ne_diverged f s
  | decSym => exact decodeSymbol_ne_diverged s
  | _ => nofun

/-! ### Commands and the host's actions -/

/-- A command whose contract is broken is answered before its pseudocode (40_system.md R90). -/
theorem exists_exec_of_contract_broken {i : Instr} {s : State} (hc : contractHolds i s = false) :
    ∃ t, exec i s = .next t := by
  cases hf : s.fcause with
  | none =>
    cases hp : protocolHolds i s with
    | false => exact ⟨_, exec_protocol hf hp⟩
    | true => exact ⟨_, exec_contract hf hp hc⟩
  | some x =>
    have he : executesWhileFaulted i = false := Bool.eq_false_iff.mpr fun he =>
      Bool.eq_false_iff.mp hc (contractHolds_of_executesWhileFaulted he s)
    exact ⟨_, exec_refused hf he⟩

theorem exists_exec_eq_next (i : Instr) (s : State) : ∃ t, exec i s = .next t := by
  cases hc : contractHolds i s with
  | false => exact exists_exec_of_contract_broken hc
  | true =>
    rw [exec_eq_runCommand]
    exact runCommand_answers i s (pseudocode_ne_diverged hc)

theorem exists_runWords_eq_next (c : Command) (s : State) : ∃ t, runWords c s = .next t := by
  cases hdec : decode c with
  | ok i =>
    rw [runWords_of_decode_ok hdec]
    exact exists_exec_eq_next i s
  | error e =>
    rw [runWords, hdec]
    cases hf : s.fcause with
    | none => exact ⟨_, by rw [illegalCommand, hf]⟩
    | some x => exact ⟨_, by rw [illegalCommand, hf]⟩

/-- A command cut short, read from the state the whole command leaves (log 6). -/
theorem abandon_of_runWords {c : Command} {k : Nat} {s t : State} (h : runWords c s = .next t) :
    abandon c k s = .next (cutShort (k * transferBits c) s t) := by
  rw [abandon, h]

theorem exists_takeEvent_eq_next (e : HostEvent) (s : State) : ∃ t, takeEvent e s = .next t := by
  cases e with
  | command c => exact exists_runWords_eq_next c s
  | rstDuring c k =>
    obtain ⟨t, ht⟩ := exists_runWords_eq_next c s
    exact ⟨_, abandon_of_runWords ht⟩
  | _ => exact ⟨_, rfl⟩

/-- Settles O8: no command diverges from any state, and no action of the host stops the block. -/
theorem everyStepAnswersANextState : Obligations.EveryStepAnswersANextState := by
  refine ⟨exists_exec_eq_next, fun s => ?_⟩
  cases hin : s.inputs with
  | nil => exact ⟨s, by rw [step, hin]⟩
  | cons e rest =>
    rw [step_of_inputs_cons hin]
    exact exists_takeEvent_eq_next e _

end Sys2Proof.Machine
end

section
/-! Reset (70_reset_and_hazards.md R210): the values it leaves, `rst` between commands, and `rst` that cuts
a command short. -/

namespace Sys2Proof.Machine

/-- Settles O10: each value is a field of the reset state. -/
theorem resetStateHasTheStatedValues : Obligations.ResetStateHasTheStatedValues :=
  ⟨rfl, rfl, rfl, rfl, rfl, rfl, rfl, rfl, rfl, rfl, rfl, rfl, rfl, rfl, rfl, rfl, rfl⟩

/-- Reset by its frame: what it does not take from the reset state (10_state.md R45; log 5). -/
theorem resetCore_eq (s : State) : ∃ ef ec df dc n, resetCore s = { State.reset with
    efreq := ef, ecum := ec, dfreq := df, dcum := dc, out := s.out, src := s.src,
    srcpos := s.srcpos, inputs := s.inputs, responses := s.responses, draws := n } :=
  ⟨_, _, _, _, _, rfl⟩

/-- Settles O11: the step takes `rst` off the queue and resets. -/
theorem rstPutsRegistersAtResetValues : Obligations.RstPutsRegistersAtResetValues := by
  intro s rest hin
  obtain ⟨ef, ec, df, dc, n, hreset⟩ := resetCore_eq (s.setInputs rest)
  exact ⟨ef, ec, df, dc, n, (step_of_inputs_cons hin).trans (congrArg _ hreset)⟩

/-! ### `rst` that cuts a command short -/

/-- A command without operand words has one command word (30_encoding.md R72, R80). -/
theorem decode_eq_ok_iff_cw {c : Command} {i : Instr}
    (h : (encode i).opcode.toNat ∉ [0x21, 0x31, 0x32, 0x33]) :
    decode c = .ok i ↔ c.cw = (encode i).cw := by
  refine ⟨fun hdec => (decodedWordIsTheEncodedWord c i hdec).symm, fun hcw => ?_⟩
  rw [← opcode_congr hcw] at h
  rw [decode_congr hcw (decodeOpcode_eq_of_cw_eq hcw h), decodeOfEncodeIsIdentity]

/-- The width of a transfer, read from the command word (20_memory.md R57). -/
theorem transferBits_eq (c : Command) :
    transferBits c = if c.cw = 0x13000000 ∨ c.cw = 0x14000000 then 10 else 8 := by
  have hwrite : decode c = .ok .hdrWrite ↔ c.cw = 0x13000000 := decode_eq_ok_iff_cw (by decide)
  have hread : decode c = .ok .hdrRead ↔ c.cw = 0x14000000 := decode_eq_ok_iff_cw (by decide)
  unfold transferBits
  split
  · rename_i hdec
    exact (if_pos (.inl (hwrite.mp hdec))).symm
  · rename_i hdec
    exact (if_pos (.inr (hread.mp hdec))).symm
  · rename_i hnwrite hnread
    exact (if_neg (not_or.mpr ⟨mt hwrite.mpr hnwrite, mt hread.mpr hnread⟩)).symm

/-- Four words at the command port, legal or not, only append to OUT (20_memory.md R50). -/
theorem runWords_out_append {c : Command} {s t : State} (h : runWords c s = .next t) :
    ∃ pushed, t.out = s.out ++ pushed := by
  unfold runWords at h
  split at h
  · exact (streamsOnlyAdvance _ _ _ h).1
  · rcases illegalCommand_cases h with ⟨x, -, rfl⟩ | ⟨-, rfl⟩
    · exact ⟨[], (List.append_nil _).symm⟩
    · exact ⟨[], (List.append_nil _).symm⟩

/-- Settles O12: OUT keeps as much of what the whole command appends as the transfers made. -/
theorem rstCutsACommandShort : Obligations.RstCutsACommandShort := by
  intro s full c k rest hin hfull
  have hrun : runWords c (s.setInputs rest) = .next full := hfull
  obtain ⟨pushed, hout⟩ := runWords_out_append hrun
  rw [State.setInputs_out] at hout
  have hstep : step s = .next (cutShort (k * transferBits c) (s.setInputs rest) full) :=
    (step_of_inputs_cons hin).trans (abandon_of_runWords hrun)
  rw [hstep, cutShort, ← transferBits_eq, hout, State.setInputs_out, List.take_length_add_append]
  exact ⟨_, _, _, _, _, pushed, rfl, rfl⟩

end Sys2Proof.Machine
end

section
/-! The step with nothing presented, and the host's fresh source and fresh sink (60_exceptions.md R193,
R196; logs 1 and 3). -/

namespace Sys2Proof.Machine

theorem step_of_inputs_nil {s : State} (h : s.inputs = []) : step s = .next s := by
  simp only [step, h]

theorem takeEvent_newSource (bits : List Bool) (s : State) :
    takeEvent (.newSource bits) s = .next { s with src := bits, srcpos := 0 } := rfl

theorem takeEvent_newSink (s : State) : takeEvent .newSink s = .next { s with out := [] } := rfl

/-- Settles O7: an empty queue leaves the state, and a fresh stream is taken off the queue and writes
only that stream's fields. -/
theorem idleAndFreshStreamSteps : Obligations.IdleAndFreshStreamSteps := by
  intro s bits rest
  refine ⟨step_of_inputs_nil, fun hsource => ?_, fun hsink => ?_⟩
  · calc step s = takeEvent (.newSource bits) (s.setInputs rest) := step_of_inputs_cons hsource
      _ = .next { s with inputs := rest, src := bits, srcpos := 0 } := takeEvent_newSource bits _
  · calc step s = takeEvent .newSink (s.setInputs rest) := step_of_inputs_cons hsink
      _ = .next { s with inputs := rest, out := [] } := takeEvent_newSink _

end Sys2Proof.Machine
end
